-- ==== Sys2Proof/Word.lean ====
section
/-! DEFINITION. The plainest values of the station controller: code values and instants. -/

namespace Sys2Proof

/-- A code value, 0 to 31 (00_scope.md 0.5): one character on the line, one entry's code, and the
header fields, station numbers and sequence numbers that travel as characters. -/
abbrev Code := Fin 32

/-- An instant or a length of time, in ticks of 1/120000 s (assumption 1): 120 ticks are 1 ms, and
every unit, half unit, sample spacing and 0.1 ms step of the spec is a whole number of ticks. -/
abbrev Ticks := Nat

end Sys2Proof
end

