-- ==== Sys2Proof/Syntax.lean ====
section
/-! DEFINITION. The commands of the part: one constructor per row of spec/opcode_table.json, and the
operands they carry. A command that the outside brings about carries the instant `t` at which it
happens; a command that is due at an instant the state already fixes carries none (assumption 1). -/

namespace Sys2Proof

/-- The level of the line, or of the keyer: mark is loop current flowing (00_scope.md 0.5). -/
inductive Level where
  | space
  | mark
deriving DecidableEq, Repr

/-- A case of the station code (R108, R140). -/
inductive Case where
  | alpha
  | numeric
deriving DecidableEq, Repr

/-- The two positions of the mode switch (R160). -/
inductive Mode where
  | attended
  | unattended
deriving DecidableEq, Repr

/-- The 39 keys of the matrix (section 8.1). The data key `data c` carries the code value `c + 1`. -/
inductive Key where
  | data (c : Fin 24)
  | space
  | ret
  | newline
  | call
  | endKey
  | cancel
  | enq
  | status
  | hereIs
  | bell
  | log
  | shift
  | brk
  | clear
  | tapeFeed
deriving DecidableEq, Repr

/-- What the input pins show at the end of the configuration read, when the blocks first read them
(R35, R104, R126, R137, R160, R161; LEFT MARGIN: assumption 5). -/
structure Inputs where
  line : Level
  paper : Bool
  tapeLow : Bool
  tapePresent : Bool
  speedOk : Bool
  leftMargin : Bool
  mode : Mode
  switchA : Bool
  switchB : Bool
deriving DecidableEq, Repr

/-- The commands: one constructor per row of the table. -/
inductive Instr where
  /-- START: power-on or assertion of the reset pin. -/
  | start
  /-- CONFIG_READ_END: the levels of CFG DI at the clocks of the read, in their order, the input pins,
  and the instant of the first sample. -/
  | configReadEnd (bits : List Bool) (pins : Inputs) (t : Ticks)
  /-- FILTERED_LEVEL_CHANGE: a run of `count` consecutive samples opposite to the filtered level,
  the first of them at `date`. -/
  | filteredLevelChange (count : Nat) (date : Ticks)
  | startCentreSample
  | stopSample
  | markLastingQ
  | breakEvent
  | lineOpen
  | answerStartInstant
  | slottedPhaseEnd
  | freePhaseTimeout
  | attemptBegin
  | keyerSupplyPoint
  | keyerStopElementEnd
  /-- ECHO_MISMATCH: the keyer compares at the compare point `t`. -/
  | echoMismatch (t : Ticks)
  | breakLimit
  | keyDown (k : Key) (t : Ticks)
  | dataKey
  | formatKey
  | callKey
  | endKey
  | cancelKey
  | enqKey
  | statusKey
  | hereIsKey
  | bellKey
  | logKey
  | clear (t : Ticks)
  | breakDown (t : Ticks)
  | breakUp (t : Ticks)
  | tapeFeedDown (t : Ticks)
  | tapeFeedUp (t : Ticks)
  | modeEvent (m : Mode) (t : Ticks)
  /-- PUNCH_SWITCH_EVENT: PUNCH SW A and PUNCH SW B as they have stood for 5 ms. -/
  | punchSwitchEvent (a b : Bool) (t : Ticks)
  | localCopierWrite
  | noticeRunWrite
  /-- WHEEL_POSITION_EVENT, with or without the index mark. -/
  | wheelPositionEvent (index : Bool) (t : Ticks)
  | hammerPulseEnd
  | hammerRecoveryEnd
  | carriageStepEnd
  | lineTimeEnd
  | leftMarginContact (t : Ticks)
  | returnTimeout
  | paperOut (t : Ticks)
  | paperIn (t : Ticks)
  | bellPulseEnd
  | punchPulseEnd
  | punchDone (t : Ticks)
  | punchCycleTimeout
  | tapeLow (t : Ticks)
  | tapeGone (t : Ticks)
  | tapeReplaced (t : Ticks)
  | runUpExpiry
  | speedOkChange (ok : Bool) (t : Ticks)
  | idleTimerExpiry
  | dataUnitSample
  | keyerUnitBoundary
  | keyUp (k : Key) (t : Ticks)
  /-- TAPE_SENSOR_FLAG_CHANGE: TAPE LOW changes while TAPE PRESENT is de-asserted. -/
  | tapeSensorFlagChange (low : Bool) (t : Ticks)
deriving DecidableEq, Repr

end Sys2Proof
end

