-- ==== Sys2Proof/Decode.lean ====
section
/-! DEFINITION. The command a word spells. No row of spec/opcode_table.json gives bits (its rows are
events of the part, with no encoding), so no word spells a command (assumption 8). -/

namespace Sys2Proof

/-- The command that the word `w` of `nbits` bits spells by the table: none, since the table gives
no row any bits. -/
def decodeTableWord (_nbits _w : Nat) : Option Instr := none

end Sys2Proof
end

