-- ==== Sys2Proof/Config.lean ====
section
/-! DEFINITION. The sizes and fixed times the spec gives the part. None is a free value: the spec
leaves no result open (assumption 29). -/

namespace Sys2Proof.Config

/-- Ticks in one millisecond (assumption 1). -/
def ticksPerMs : Ticks := 120
/-- The copy queue holds at most 2048 entries (R86). -/
def copyCapacity : Nat := 2048
/-- The send store holds up to 1024 characters (R142). -/
def storeCapacity : Nat := 1024
/-- The outgoing table holds up to 8 records (R143). -/
def tableCapacity : Nat := 8
/-- The traffic log holds up to 16 records (R171). -/
def logCapacity : Nat := 16
/-- The key queue holds up to 6 keys (R141). -/
def keyQueueCapacity : Nat := 6
/-- The notice request queue holds up to 4 requests (R95). -/
def requestCapacity : Nat := 4
/-- The watermark state becomes STOPPED at this occupancy (R98). -/
def highWater : Nat := 1536
/-- The watermark state becomes PERMITTED at this occupancy (R98). -/
def lowWater : Nat := 1024
/-- A space run of 2 s is LINE-OPEN (R34). -/
def lineOpenTime : Ticks := 2000 * ticksPerMs
/-- The loader gives 384 clocks and takes one bit of the image at each (R181). -/
def imageClocks : Nat := 384
/-- A bell request asserts BELL for 100 ms (R125). -/
def bellTime : Ticks := 100 * ticksPerMs
/-- The highest wheel position, that of the error mark (R110, R114). -/
def errorMark : Nat := 48

end Sys2Proof.Config
end

