-- ==== Sys2Proof/Machine/State.lean ====
section
/-! DEFINITION. The state of the part, block by block (section 0.4), its reset value, and the reasons
for which a step could stop. Plain data throughout. -/

namespace Sys2Proof.Machine

/-! ### Configuration loader (chapter 11) -/

/-- The configuration standing (R181, R184). -/
inductive Standing where
  | reading
  | configured
  | unconfigured
  | listenOnly
deriving DecidableEq, Repr

/-- The parameters handed to the blocks at the end of the read (R182, R185), in the coding of the
image. `own` is the station number: absent until a read ends and in an UNCONFIGURED station, 31 in
a LISTEN-ONLY one. -/
structure Params where
  own : Option Code
  careMask : Code
  groupSet : Code
  /-- N, the slot count -/
  slots : Nat
  /-- 0 to 5 (section 0.6) -/
  rate : Nat
  /-- 0, 1, 2 for a stop element of 1, 1.5, 2 units -/
  stopCode : Nat
  /-- Q, in units -/
  quiet : Nat
  /-- g, in samples -/
  glitch : Nat
  retryLimit : Nat
  errorThreshold : Nat
  /-- in 10 ms steps -/
  breakLimit : Nat
  lineLength : Nat
  /-- margin action: OVERPRINT when set, WRAP otherwise (R117) -/
  overprint : Bool
  /-- the unshift-on-space option (R115) -/
  unshift : Bool
  blankLines : Nat
  leader : Nat
  /-- in 0.1 ms steps -/
  hammerPulse : Nat
  /-- in ms -/
  hammerRecovery : Nat
  /-- in ms -/
  carriageStep : Nat
  /-- in 10 ms steps -/
  returnTimeout : Nat
  /-- in ms -/
  lineTime : Nat
  /-- in ms -/
  punchPulse : Nat
  /-- in 2 ms steps -/
  punchTimeout : Nat
  /-- in 10 ms steps -/
  runUp : Nat
  /-- in s -/
  attendedIdle : Nat
  /-- in s -/
  unattendedIdle : Nat
  /-- the first n codes, in their configured order -/
  answerBack : List Code
deriving DecidableEq, Repr

/-- The default column of the table of R182, with no station number. -/
def Params.default : Params where
  own := none
  careMask := 31
  groupSet := 0
  slots := 31
  rate := 2
  stopCode := 1
  quiet := 12
  glitch := 2
  retryLimit := 2
  errorThreshold := 15
  breakLimit := 50
  lineLength := 72
  overprint := false
  unshift := false
  blankLines := 1
  leader := 8
  hammerPulse := 15
  hammerRecovery := 8
  carriageStep := 12
  returnTimeout := 100
  lineTime := 80
  punchPulse := 8
  punchTimeout := 75
  runUp := 50
  attendedIdle := 60
  unattendedIdle := 10
  answerBack := [0]

/-- The configuration loader (R181). -/
structure Loader where
  standing : Standing
  /-- the configuration image: the bytes taken so far, and as clamped when it was accepted -/
  image : List Nat
  /-- bytes received -/
  count : Nat
  /-- clocks given for the image -/
  clocks : Nat
  /-- the bits taken of a byte that is not yet whole, highest place first -/
  taken : List Bool
  /-- CFG SEL -/
  select : Bool
  /-- the bits sent on CFG DO since start, in their order -/
  sent : List Bool
  params : Params
deriving DecidableEq, Repr

/-! ### Line receiver (chapter 2) -/

/-- A character as the receiver reports it (R31). -/
structure RxChar where
  code : Code
  damaged : Bool
  start : Ticks
  stop : Ticks
  paused : Bool
deriving DecidableEq, Repr

/-- The character assembler (R28 to R30). It hunts when it is `empty`, the line is at mark and the
listener is not in QUIET-WAIT. -/
inductive Assembler where
  | empty
  /-- assembling the character that started at `start`; `bits` are the data readings so far, the
  place of 16 first, a mark as `true` -/
  | assembling (start : Ticks) (paused confirmed : Bool) (bits : List Bool)
  /-- withholding a damaged character -/
  | withholding (start : Ticks) (paused : Bool) (code : Code)
deriving DecidableEq, Repr

/-- The line receiver (section 2.3). -/
structure Receiver where
  /-- the filtered level; none until the read ends (R35) -/
  level : Option Level
  /-- the latest sample the filter has taken (R26) -/
  sampled : Option Ticks
  /-- date of the last filtered space-to-mark change -/
  markDate : Option Ticks
  /-- date of the last filtered mark-to-space change -/
  spaceDate : Option Ticks
  /-- mark lasting Q was reported for the present mark run -/
  quietReported : Bool
  /-- a break was reported for the present space run -/
  breakReported : Bool
  /-- LINE-OPEN was reported for the present space run -/
  openReported : Bool
  assembler : Assembler
  pauseRef : Ticks
  /-- the line standing is LINE-OPEN -/
  lineOpen : Bool
deriving DecidableEq, Repr

/-! ### Listener (chapter 1) -/

/-- The seven states of the listener (R15). -/
inductive ListenerState where
  | quietWait
  | idle
  | header
  | text
  | check
  | slottedAnswers
  | freeAnswer
deriving DecidableEq, Repr

/-- The listener (R15, R22, R23). -/
structure Listener where
  state : ListenerState
  /-- the header characters taken so far -/
  fields : List Code
  /-- the five fields made a valid header (R2) -/
  valid : Bool
  /-- a CONTROL held for its function -/
  held : Option RxChar
  /-- the check accumulator -/
  acc : Nat
  /-- the check temporary -/
  temp : Option Code
  /-- a covered character of the message was damaged (R9) -/
  damaged : Bool
  /-- a character of the opening or the closing pair of the message was damaged (R19) -/
  pairDamaged : Bool
  /-- the first check character -/
  check : Option RxChar
  /-- T0 of the answer phase in progress -/
  t0 : Ticks
  /-- a start unit has begun on the line in this free phase before T0 + S (R12) -/
  startSeen : Bool
  /-- the end of the last answer phase reported (R47) -/
  phaseEnd : Option Ticks
  /-- L, the last-originator number -/
  lastOriginator : Code
  /-- the line error count -/
  errors : Nat
  /-- the DEGRADED standing -/
  degraded : Bool
deriving DecidableEq, Repr

/-! ### Call matcher and answerer (chapter 4) -/

/-- The five header fields (R2). -/
structure Header where
  group : Code
  station : Code
  originator : Code
  kind : Code
  seq : Code
deriving DecidableEq, Repr

/-- The four states of the call matcher (R66). -/
inductive MatcherState where
  | idle
  | called
  | due
  | keying
deriving DecidableEq, Repr

/-- A valid peer table entry (R70). -/
structure PeerEntry where
  seq : Code
  response : Code
deriving DecidableEq, Repr

/-- The disposition of a called message (R69). -/
inductive Disposition where
  | duplicate
  | refused
  | accepted
  | lost
  | enquiry
  | status
deriving DecidableEq, Repr

/-- The current incoming record (R65). -/
structure Incoming where
  header : Header
  logNumber : Nat
  disposition : Disposition
  /-- the run's text goes to print -/
  toPrint : Bool
  /-- the run is punch-destined -/
  toPunch : Bool
  runOpen : Bool
  /-- the pending gap count -/
  pendingGap : Nat
  /-- the total lost count -/
  lost : Nat
  /-- the character count -/
  chars : Nat
deriving DecidableEq, Repr

/-- The answer in preparation (R65): its response, its characters, the instant at which keying is to
begin, and how many of the characters the keyer has been given. -/
structure Answer where
  response : Code
  chars : List Code
  start : Ticks
  supplied : Nat
deriving DecidableEq, Repr

/-- The call matcher and answerer (R65). -/
structure Matcher where
  state : MatcherState
  peers : Vector (Option PeerEntry) 31
  carriedGap : Nat
  incoming : Option Incoming
  answer : Option Answer
deriving DecidableEq, Repr

/-! ### Keyer (section 2.5) -/

/-- The holder of the keyer (R36). -/
inductive Holder where
  | none
  | message
  | answer
  | breakKey
deriving DecidableEq, Repr

/-- What the holder has said at the supply point of the character being keyed (R37). -/
inductive Supply where
  | unasked
  | char (c : Code)
  | finished
deriving DecidableEq, Repr

/-- The character being keyed: the instant its start unit began, and the unit it is in: 0 the start
unit, 1 to 5 the data units, 6 the stop element. -/
structure KeyedChar where
  code : Code
  start : Ticks
  unit : Nat
  next : Supply
deriving DecidableEq, Repr

/-- The keyer (R36 to R39). `spaceSince` is the beginning of the continuous space it keys; the KEYER
output is asserted exactly while there is one. -/
structure Keyer where
  holder : Holder
  current : Option KeyedChar
  spaceSince : Option Ticks
deriving DecidableEq, Repr

/-! ### Outgoing table, transmitter and contention (chapters 3 and 8) -/

/-- The outcomes of an outgoing message (R43). -/
inductive OutOutcome where
  | delivered
  | partialDelivery
  | undelivered
  | interrupted
  | lineFailed
  | cancelled
  | answered
deriving DecidableEq, Repr

/-- The state of a message record (R43). -/
inductive MessageState where
  | composing
  | ready
  | contending
  | sending
  | answering
  | done (outcome : OutOutcome)
deriving DecidableEq, Repr

/-- One entry of an answer list: a station and its response, 0 for garbled (R59). -/
structure AnswerEntry where
  station : Code
  response : Code
deriving DecidableEq, Repr

/-- The content of an answered ENQUIRY or STATUS (R62). -/
inductive Content where
  | none
  | answerBack (codes : List Code)
  | status (values : List Code)
deriving DecidableEq, Repr

/-- The fields of a message record beside its text (R43, R143). -/
structure Message where
  logNumber : Nat
  group : Code
  station : Code
  /-- the base kind, 1 to 5 -/
  kind : Code
  seq : Code
  state : MessageState
  retries : Nat
  collisions : Nat
  /-- the merged answer list, in station order -/
  answers : List AnswerEntry
  /-- what an answered ENQUIRY or STATUS brought, kept from the outcome ANSWERED on (R62) -/
  content : Content
deriving DecidableEq, Repr

/-- What a record of the outgoing table is (R143): a message record, or a local record that is OPEN
or CLOSED. -/
inductive RecordBody where
  | message (m : Message)
  | text (isOpen : Bool)
deriving DecidableEq, Repr

/-- A record of the outgoing table (R143). `start` is the place of its text in the circle of the send
store, `progress` its local-copy progress, and `copied` says that its local copy is complete. -/
structure OutRecord where
  start : Nat
  length : Nat
  progress : Nat
  copied : Bool
  body : RecordBody
deriving DecidableEq, Repr

/-- The send store (R142): its contents from the oldest end, and the place of the oldest end in the
circle of 1024 (assumption 25). -/
structure Store where
  base : Nat
  chars : List Code
deriving DecidableEq, Repr

/-- What the transmitter supplies next to the keyer (R50, R55). -/
inductive Stage where
  | opening
  /-- header character 0 to 4 -/
  | header (n : Nat)
  /-- the text from `pos`; `inPair` when the last character supplied was a CONTROL that begins a
  pair -/
  | text (pos : Nat) (inPair : Bool)
  | closingEnd
  | checkHigh
  | checkLow
  | cancelFunction
  /-- no further character: after CANCEL, or after the second check character -/
  | finished (cancelled : Bool)
deriving DecidableEq, Repr

/-- A mismatch whose space run is not yet settled (R52): the compare point and the date of the run. -/
structure Mismatch where
  comparePoint : Ticks
  spaceDate : Option Ticks
deriving DecidableEq, Repr

/-- An answer phase as the listener reported it (R56). -/
structure Phase where
  t0 : Ticks
  isFree : Bool
deriving DecidableEq, Repr

/-- The transmitter's attempt, from the keyer's grant to the judgement (R49, R51, R56). -/
structure Attempt where
  granted : Ticks
  stage : Stage
  acc : Nat
  temp : Option Code
  /-- a cancel request has been taken (R55) -/
  cancel : Bool
  /-- stopped on a mismatch (R52) -/
  stopped : Option Mismatch
  phase : Option Phase
  /-- the phase ended before the keyer reported the end of the sequence (R56) -/
  phaseOver : Bool
deriving DecidableEq, Repr

/-- The transmitter (R43, R44, R57). The states of the records stand in the table. -/
structure Transmitter where
  /-- the sequence counter -/
  seq : Code
  attempt : Option Attempt
  /-- the characters of the attempt's answer phase, in order -/
  heard : List RxChar
deriving DecidableEq, Repr

/-! ### Copy queue (chapter 5) -/

/-- The destinations of an entry (R87). -/
inductive Dest where
  | print
  | punch
  | both
deriving DecidableEq, Repr

/-- An entry of the copy queue (R87); RUN-START and RUN-END carry both destinations. -/
inductive Entry where
  | char (code : Code) (damaged : Bool) (dest : Dest)
  | gap (lost : Nat) (dest : Dest)
  | runStart
  | runEnd
deriving DecidableEq, Repr

/-- The write-port holder (R90). -/
inductive PortHolder where
  | none
  | receive
  | localRun
deriving DecidableEq, Repr

/-- The local run standing (R92, R93). -/
inductive LocalRun where
  | none
  | opened
  | suspended
deriving DecidableEq, Repr

/-- The watermark state (R98). -/
inductive Watermark where
  | permitted
  | stopped
deriving DecidableEq, Repr

/-- A notice request (R95). -/
inductive Request where
  | delivery (logNumber : Nat)
  | log
  | start (digit : Nat)
deriving DecidableEq, Repr

/-- The copy queue (R86). The pointers are places counted from the head; the tail is the place equal
to the number of entries. -/
structure CopyQueue where
  entries : List Entry
  printAt : Nat
  punchAt : Nat
  holder : PortHolder
  localRun : LocalRun
  /-- the text of the open local run goes to the punch as well (R92); print-only at start, and the last
  run's between runs (assumption 55) -/
  localPunch : Bool
  /-- the held count -/
  held : Nat
  watermark : Watermark
  requests : List Request
  /-- the port, freed by the close of a run, is still being offered to the waiting notices (R91, assumption 16) -/
  offering : Bool
  /-- the local copier's character was refused and waits to be told (R92) -/
  copierWaits : Bool
deriving DecidableEq, Repr

/-! ### Page printer (chapter 6) -/

/-- The five states of the printer (R104). -/
inductive PrinterState where
  | off
  | idle
  | active
  | paperOut
  | fault
deriving DecidableEq, Repr

/-- An operation that waits for parts of the mechanism (R108). -/
inductive PrintOp where
  | strike (target : Nat)
  | space
  | newline
  | ret
deriving DecidableEq, Repr

/-- The carriage reservation (R107). A strike holds it from its firing and, if it steps, through the
step; a RETURN holds it to its contact or its timeout, and is `live` unless a fault came over it
(R122). -/
inductive Carriage where
  | free
  | strike (steps : Bool)
  | step (ends : Ticks)
  | ret (timeout : Ticks) (live : Bool)
deriving DecidableEq, Repr

/-- The platen reservation (R107). -/
inductive Platen where
  | free
  | strike
  | feed (ends : Ticks)
deriving DecidableEq, Repr

/-- The hammer reservation (R107): HAMMER is asserted while `pulsing`. -/
structure Hammer where
  pulseEnd : Ticks
  recoveryEnd : Ticks
  pulsing : Bool
deriving DecidableEq, Repr

/-- The pending stop (R105, R121). -/
inductive PrintStop where
  | none
  | paper
  | motor
deriving DecidableEq, Repr

/-- The page printer controller (R104). -/
structure Printer where
  state : PrinterState
  case : Case
  /-- 1 to the line length; none while unknown -/
  column : Option Nat
  atMargin : Bool
  carriage : Carriage
  platen : Platen
  hammer : Option Hammer
  /-- the operation of the entry at the print pointer, waiting at the head -/
  head : Option PrintOp
  /-- internal operations still to issue before it (R117, R120) -/
  internals : List PrintOp
  /-- the NEWLINE of a wrap was withdrawn while its RETURN was in flight (R117, assumption 27) -/
  wrapOwed : Bool
  heldControl : Bool
  stop : PrintStop
  wheel : Nat
  /-- the wheel standing is SYNCED -/
  synced : Bool
  mismatches : Nat
  /-- the paper flag: the paper is present -/
  paper : Bool
  /-- the LEFT MARGIN contact is closed (assumption 5) -/
  leftMargin : Bool
  /-- the end of the bell pulse -/
  bell : Option Ticks
deriving DecidableEq, Repr

/-! ### Tape punch (chapter 7) -/

/-- The six states of the punch (R126). -/
inductive PunchState where
  | off
  | idle
  | cycling
  | tapeLowFinish
  | tapeOut
  | fault
deriving DecidableEq, Repr

/-- A cycle in flight (R129): its row, its issue time, and the end of its magnet pulse. -/
structure PunchCycle where
  row : Code
  issued : Ticks
  pulseEnd : Ticks
  /-- the magnet outputs of the row are asserted -/
  magnets : Bool
deriving DecidableEq, Repr

/-- The feed mode (R135). -/
inductive FeedMode where
  | none
  | waiting
  | continuous
  | oneShot
deriving DecidableEq, Repr

/-- The positions of the punch switch (R137). -/
inductive PunchSwitch where
  | off
  | receive
  | locally
deriving DecidableEq, Repr

/-- The tape punch controller (R126), with the position of its switch (R137). -/
structure Punch where
  state : PunchState
  cycle : Option PunchCycle
  /-- the pending stop is motor -/
  stop : Bool
  inRun : Bool
  tapeLow : Bool
  tapePresent : Bool
  feed : FeedMode
  switch : PunchSwitch
deriving DecidableEq, Repr

/-! ### Motor and mode control (chapter 9) -/

/-- The four states of the motor (R161). -/
inductive MotorState where
  | off
  | starting
  | running
  | fault
deriving DecidableEq, Repr

/-- Motor and mode control (R161): the timers are given by the instants at which they expire. -/
structure Motor where
  state : MotorState
  runUp : Option Ticks
  idle : Option Ticks
  speedOk : Bool
  mode : Mode
deriving DecidableEq, Repr

/-- The mechanism side of the part: the copy queue and its readers, and the motor that drives them. -/
structure Mech where
  queue : CopyQueue
  printer : Printer
  punch : Punch
  motor : Motor
deriving DecidableEq, Repr

/-! ### Keyboard and composer (chapter 8) -/

/-- A key in the key queue, with the case a data key took at its down event (R140, R141). -/
structure QueuedKey where
  key : Key
  case : Option Case
deriving DecidableEq, Repr

/-- The keyboard (R139, R141): the debounced standings, DOWN as `true`, and the key queue. -/
structure Keyboard where
  down : Vector Bool 39
  queue : List QueuedKey
deriving DecidableEq, Repr

/-- The four states of the composer (section 8.3). -/
inductive ComposerState where
  | composeLocal
  | address
  | kind
  | text
deriving DecidableEq, Repr

/-- The composer (R145): its state, the send case (none while unknown), the accepted group pair and
the first digit of the pair being entered. -/
structure Composer where
  state : ComposerState
  sendCase : Option Case
  group : Option Code
  tens : Option Nat
deriving DecidableEq, Repr

/-- What the local copier knows of the entries it wrote from its current record (R94, R155): the case
the printer will hold after the last of them, none before the record's first case code (a SPACE under
unshift-on-space counts as one, assumption 48), and whether the last is a CONTROL whose pair the next
code of the open run completes. -/
structure Copier where
  case : Option Case
  inPair : Bool
deriving DecidableEq, Repr

/-! ### Traffic log (chapter 10) -/

/-- The outcomes of an incoming record (R171). -/
inductive InOutcome where
  | complete
  | heldComplete
  | checkFailed
  | overrun
  | refused
  | cancelled
  | answered
  | broken
  | duplicate
deriving DecidableEq, Repr

/-- The fields of a log record that depend on its direction (R171). A record is finished when its
outcome is present. -/
inductive LogBody where
  | outgoing (peer kind : Option Code) (outcome : Option OutOutcome) (answers : List AnswerEntry)
      (content : Content) (collisions retries : Nat)
  | incoming (peer kind : Code) (outcome : Option InOutcome) (lost : Nat)
deriving DecidableEq, Repr

/-- A log record (R171). -/
structure LogRecord where
  number : Nat
  seq : Code
  chars : Nat
  body : LogBody
deriving DecidableEq, Repr

/-- The traffic log (R171): its records, oldest first, and the record counter. -/
structure Log where
  records : List LogRecord
  counter : Nat
deriving DecidableEq, Repr

/-! ### The whole part -/

/-- The state of the part. `now` (the instant of the latest command, assumption 1) and `pending` (the
commands that wait, first in first out) are the model's own. -/
structure State where
  now : Ticks
  pending : List Instr
  loader : Loader
  receiver : Receiver
  listener : Listener
  matcher : Matcher
  keyer : Keyer
  transmitter : Transmitter
  table : List OutRecord
  store : Store
  composer : Composer
  copier : Copier
  keyboard : Keyboard
  mech : Mech
  log : Log
deriving DecidableEq, Repr

/-- The reasons for which a command could fault: none. The spec names no event that stops the part;
its mechanism faults are states it goes on in (assumption 29). Safe: no command stops. -/
inductive Fault where
deriving DecidableEq, Repr

/-- The reasons for which a command could be refused. -/
inductive Refusal where
  /-- Raised only by an arm of `exec` whose command has no meaning yet; no arm is such an arm. Safe:
  the model stops where the part goes on. -/
  | notModelled (mnemonic : String)
deriving DecidableEq, Repr

/-! ### Values after start -/

/-- R181: standing READING, no byte received, CFG SEL asserted, and the read request sent: the request
value 0x0C (12, which is 00001100) and the address 0, each highest place first.
The parameters are the default column until a read ends (assumption 6). -/
def Loader.reset : Loader where
  standing := .reading
  image := []
  count := 0
  clocks := 0
  taken := []
  select := true
  sent := [false, false, false, false, true, true, false, false] ++ List.replicate 8 false
  params := Params.default

/-- R34, R35: no filtered level, nothing measured, no character, line standing NORMAL. Neither change
date holds an instant before the first change to its level (assumption 45). -/
def Receiver.reset : Receiver where
  level := none
  sampled := none
  markDate := none
  spaceDate := none
  quietReported := false
  breakReported := false
  openReported := false
  assembler := .empty
  pauseRef := 0
  lineOpen := false

/-- R15: QUIET-WAIT, empty fields, accumulator 0, L 30, line error count 0, not DEGRADED. -/
def Listener.reset : Listener where
  state := .quietWait
  fields := []
  valid := false
  held := none
  acc := 0
  temp := none
  damaged := false
  pairDamaged := false
  check := none
  t0 := 0
  startSeen := false
  phaseEnd := none
  lastOriginator := 30
  errors := 0
  degraded := false

/-- R65: IDLE, no record, no answer, every peer entry invalid, carried gap count 0. -/
def Matcher.reset : Matcher where
  state := .idle
  peers := Vector.replicate 31 none
  carriedGap := 0
  incoming := none
  answer := none

/-- R36: holder NONE, at mark. -/
def Keyer.reset : Keyer where
  holder := .none
  current := none
  spaceSince := none

/-- R43, R44: no active record, sequence counter 0. -/
def Transmitter.reset : Transmitter where
  seq := 0
  attempt := none
  heard := []

/-- R86: empty, both pointers at the tail, holder NONE, no local run, PERMITTED, no request. The
destinations of an open local run are print-only before the first one (assumption 55). -/
def CopyQueue.reset : CopyQueue where
  entries := []
  printAt := 0
  punchAt := 0
  holder := .none
  localRun := .none
  localPunch := false
  held := 0
  watermark := .permitted
  requests := []
  offering := false
  copierWaits := false

/-- R104: OFF, alpha, column unknown, nothing held or waiting, wheel count 0 and UNSYNCED, bell
silent. The paper flag and the margin contact are read later (assumption 7). -/
def Printer.reset : Printer where
  state := .off
  case := .alpha
  column := none
  atMargin := false
  carriage := .free
  platen := .free
  hammer := none
  head := none
  internals := []
  wrapOwed := false
  heldControl := false
  stop := .none
  wheel := 0
  synced := false
  mismatches := 0
  paper := true
  leftMargin := false
  bell := none

/-- R126: OFF, no cycle, no pending stop, in-run clear, feed mode NONE. The tape flags and the switch
are read later (assumption 7). -/
def Punch.reset : Punch where
  state := .off
  cycle := none
  stop := false
  inRun := false
  tapeLow := false
  tapePresent := true
  feed := .none
  switch := .off

/-- R161: OFF, both timers stopped. The speed flag and the mode are read later (assumption 7). -/
def Motor.reset : Motor where
  state := .off
  runUp := none
  idle := none
  speedOk := false
  mode := .attended

def Mech.reset : Mech where
  queue := CopyQueue.reset
  printer := Printer.reset
  punch := Punch.reset
  motor := Motor.reset

/-- R139, R141: every key UP, the key queue empty. -/
def Keyboard.reset : Keyboard where
  down := Vector.replicate 39 false
  queue := []

/-- R145: LOCAL, send case unknown, no digits. -/
def Composer.reset : Composer where
  state := .composeLocal
  sendCase := none
  group := none
  tens := none

/-- R155: no record is being copied. -/
def Copier.reset : Copier where
  case := none
  inPair := false

/-- The part right after start (section 0.7 and the rules of each block): every block at its start
value, the configuration read under way. -/
def State.reset : State where
  now := 0
  pending := []
  loader := Loader.reset
  receiver := Receiver.reset
  listener := Listener.reset
  matcher := Matcher.reset
  keyer := Keyer.reset
  transmitter := Transmitter.reset
  table := []
  store := { base := 0, chars := [] }
  composer := Composer.reset
  copier := Copier.reset
  keyboard := Keyboard.reset
  mech := Mech.reset
  log := { records := [], counter := 0 }

end Sys2Proof.Machine
end

