-- ==== Sys2Proof/Machine/Ops.lean ====
section
/-! DEFINITION. The named operations every block shares: the times of the configuration, the clock,
the one's-complement check, figures as digits, and the shape of a command's meaning. -/

namespace Sys2Proof.Machine

open Sys2Proof

/-! ### Times (R24, section 0.6, R182) -/

/-- One unit at the configured rate (section 0.6): 20, 13.33, 10, 6.67, 5, 3.33 ms. -/
def Params.unit (p : Params) : Ticks :=
  match p.rate with
  | 0 => 2400
  | 1 => 1600
  | 2 => 1200
  | 3 => 800
  | 4 => 600
  | _ => 400

/-- The stop element: 1, 1.5 or 2 units (R24). -/
def Params.stopElement (p : Params) : Ticks := p.unit * (2 + p.stopCode) / 2

/-- C, the character time (R24). -/
def Params.charTime (p : Params) : Ticks := 6 * p.unit + p.stopElement

/-- S, the slot length, 3C (R11). -/
def Params.slot (p : Params) : Ticks := 3 * p.charTime

/-- The spacing of the samples, one eighth of a unit (R26). -/
def Params.sample (p : Params) : Ticks := p.unit / 8

/-- The quiet interval Q (R27). -/
def Params.quietTime (p : Params) : Ticks := p.quiet * p.unit

/-- A break is a space of 2C (R32). -/
def Params.breakTime (p : Params) : Ticks := 2 * p.charTime

/-- A length given in milliseconds. -/
def ms (n : Nat) : Ticks := n * Config.ticksPerMs

/-- The full idle time of a mode, in seconds in the configuration (R161, R165). -/
def Params.idleTime (p : Params) : Mode → Ticks
  | .attended => ms (1000 * p.attendedIdle)
  | .unattended => ms (1000 * p.unattendedIdle)

/-! ### The clock and the shape of a meaning -/

/-- The part at instant `t`: the clock moves on and never back (assumption 1). -/
def State.at (s : State) (t : Ticks) : State := { s with now := max s.now t }

/-- The blocks work once the configuration read has ended (R35, R139, R161, R181). -/
def State.working (s : State) : Bool := s.loader.standing != .reading

/-- The meaning of a command: its effect where it can arise, and no change where it cannot: before
the read ends (assumption 3), or where nothing is due (assumption 2). -/
def perform (s : State) (arises : Bool) (effect : State → State) :
    Host.Outcome State Fault Refusal :=
  .next (if s.working && arises then effect s else s)

/-! ### The check (R6 to R9) -/

/-- Addition of a symbol to the check accumulator, with the end-around carry (R7). -/
def addSymbol (acc symbol : Nat) : Nat :=
  let t := acc + symbol
  if t ≤ 1023 then t else t - 1024 + 1

/-- A covered character joins the pairing (R6). -/
def feedCheck (acc : Nat) (temp : Option Code) (c : Code) : Nat × Option Code :=
  match temp with
  | none => (acc, some c)
  | some a => (addSymbol acc (32 * a.val + c.val), none)

/-- The accumulator after an odd count is padded with 0 (R6). -/
def padCheck (acc : Nat) (temp : Option Code) : Nat :=
  match temp with
  | none => acc
  | some a => addSymbol acc (32 * a.val)

/-- The accumulator over a whole sequence of covered characters. -/
def checkOf : List Code → Nat × Option Code → Nat
  | [], (acc, temp) => padCheck acc temp
  | c :: cs, (acc, temp) => checkOf cs (feedCheck acc temp c)

/-! ### Values as code values -/

/-- A number brought into the range of a code value. -/
def toCode (n : Nat) : Code := Fin.ofNat 32 n

/-- Digit `d` is written as the code `d + 1` (R175). -/
def digit (d : Nat) : Code := toCode (d % 10 + 1)

/-- Two digits, tens first (R175). -/
def digits2 (n : Nat) : List Code := [digit (n / 10), digit n]

/-- Three digits, hundreds first (R175). -/
def digits3 (n : Nat) : List Code := [digit (n / 100), digit (n / 10), digit n]

/-- Five digits, ten-thousands first (R175). -/
def digits5 (n : Nat) : List Code :=
  [digit (n / 10000), digit (n / 1000), digit (n / 100), digit (n / 10), digit n]

/-- The code value of five data readings, the place of 16 first, a mark as present (R29). -/
def readingsValue (bits : List Bool) : Code :=
  toCode (bits.foldl (fun v b => 2 * v + (if b then 1 else 0)) 0)

/-- The level of data unit 1 to 5 of a code, highest place first; the stop element (6) is at mark and
the start unit (0) at space (R25). -/
def keyedLevel (code : Code) (unit : Nat) : Level :=
  if unit = 0 then .space
  else if 6 ≤ unit then .mark
  else if code.val.testBit (5 - unit) then .mark else .space

/-- A count that stops at its upper bound (R65). -/
def addUpTo (bound n k : Nat) : Nat := min bound (n + k)

/-- `f` on the last element of a list. -/
def onLast {α : Type} (f : α → α) : List α → List α
  | [] => []
  | [a] => [f a]
  | a :: b :: rest => a :: onLast f (b :: rest)

/-- `f` on the first element that satisfies `q`. -/
def onFirst {α : Type} (q : α → Bool) (f : α → α) : List α → List α
  | [] => []
  | a :: rest => if q a then f a :: rest else a :: onFirst q f rest

end Sys2Proof.Machine
end

