-- ==== Sys2Proof/Machine/Operands.lean ====
section
/-! DEFINITION. The operands of the commands read by the blocks: keys and their classes, the punch
switch from its two pins. -/

namespace Sys2Proof.Machine

open Sys2Proof

/-- The place of a key's standing among the 39 keys (R139). -/
def keyIndex : Key → Fin 39
  | .data c => ⟨c.val, by omega⟩
  | .space => 24
  | .ret => 25
  | .newline => 26
  | .call => 27
  | .endKey => 28
  | .cancel => 29
  | .enq => 30
  | .status => 31
  | .hereIs => 32
  | .bell => 33
  | .log => 34
  | .shift => 35
  | .brk => 36
  | .clear => 37
  | .tapeFeed => 38

/-- The code value of a data key, fixed by its place: 1 to 24 (section 8.1). -/
def dataCode (c : Fin 24) : Code := ⟨c.val + 1, by omega⟩

/-- The code a format key stores: SPACE 26, NEWLINE 27, RETURN 28 (R146). -/
def formatCode : Key → Option Code
  | .space => some 26
  | .newline => some 27
  | .ret => some 28
  | _ => none

/-- The case code of a case: ALPHA 30, NUMERIC 29 (section 2.2). -/
def caseCode : Case → Code
  | .alpha => 30
  | .numeric => 29

/-- Keys that go through the key queue: data, format and function keys (section 8.1). -/
def isQueued : Key → Bool
  | .shift | .brk | .clear | .tapeFeed => false
  | _ => true

/-- The debounced standing of a key is DOWN (R139). -/
def Keyboard.isDown (k : Keyboard) (key : Key) : Bool := k.down[keyIndex key]

/-- The keyboard with a key's standing set (R139) (assumption 21). -/
def Keyboard.setKey (k : Keyboard) (key : Key) (isDown : Bool) : Keyboard :=
  { k with down := k.down.set (keyIndex key) isDown }

/-- The position of the punch switch from its pins; both asserted is taken as OFF (R137). -/
def switchPosition (a b : Bool) : PunchSwitch :=
  match a, b with
  | true, false => .receive
  | false, true => .locally
  | _, _ => .off

end Sys2Proof.Machine
end

