-- ==== Sys2Proof/Machine/CopyQueue.lean ====
section
/-! DEFINITION. The copy queue by itself (chapter 5): entries, pointers, leaving, free space, the
port. The readers that act on a write are in Printer.lean and Punch.lean. -/

namespace Sys2Proof.Machine

open Sys2Proof

/-- The entry is for print (R87). -/
def Entry.forPrint : Entry → Bool
  | .char _ _ d | .gap _ d => d != .punch
  | .runStart | .runEnd => true

/-- The entry is for the punch (R87). -/
def Entry.forPunch : Entry → Bool
  | .char _ _ d | .gap _ d => d != .print
  | .runStart | .runEnd => true

/-- The free count: 2048 less the occupancy (R86). -/
def CopyQueue.free (q : CopyQueue) : Nat := Config.copyCapacity - q.entries.length

/-- A run is open (R88). -/
def CopyQueue.runOpen (q : CopyQueue) : Bool := q.holder != .none

/-- The free entries of a writer other than that of an open run (R89). -/
def CopyQueue.freeForOther (q : CopyQueue) : Nat := if q.runOpen then q.free - 1 else q.free

/-- The entry the printer stands at (R99). -/
def CopyQueue.printEntry (q : CopyQueue) : Option Entry := q.entries[q.printAt]?

/-- The entry the punch stands at (R99). -/
def CopyQueue.punchEntry (q : CopyQueue) : Option Entry := q.entries[q.punchAt]?

/-- A pointer at `place` passes the entries that are not for its consumer (R99). -/
def passOver (isFor : Entry → Bool) (entries : List Entry) (place : Nat) : Nat :=
  place + ((entries.drop place).takeWhile (fun e => !isFor e)).length

/-- The in-run flag after a pointer has gone past `passed` (R128). -/
def inRunAfter (inRun : Bool) (passed : List Entry) : Bool :=
  passed.foldl (fun r e => match e with | .runStart => true | .runEnd => false | _ => r) inRun

/-- How many RUN-END entries stand in a list (R102). -/
def runEnds (entries : List Entry) : Nat := entries.countP (· == .runEnd)

/-- The watermark state after entries have left, down to occupancy `n` (R98). -/
def lowered (w : Watermark) (n : Nat) : Watermark :=
  if n ≤ Config.lowWater then .permitted else w

/-- Entries that both pointers have gone past leave from the head (R101); the held count and the
watermark state follow (R102, R98), and a copier told PERMITTED offers again (R92). -/
def CopyQueue.leave (q : CopyQueue) : CopyQueue :=
  let k := min q.printAt q.punchAt
  if k = 0 then q
  else
    let rest := q.entries.drop k
    { q with
      entries := rest
      printAt := q.printAt - k
      punchAt := q.punchAt - k
      held := q.held - runEnds (q.entries.take k)
      watermark := lowered q.watermark rest.length
      copierWaits :=
        if q.watermark = .stopped ∧ lowered q.watermark rest.length = .permitted then false
        else q.copierWaits }

/-- An entry joins the tail (R86); the held count and the watermark state follow (R102, R98). -/
def CopyQueue.append (q : CopyQueue) (e : Entry) : CopyQueue :=
  { q with
    entries := q.entries ++ [e]
    held := q.held + runEnds [e]
    watermark :=
      if Config.highWater ≤ q.entries.length + 1 then .stopped else q.watermark }

/-- The port is free again after the close of a run: it is offered first to the waiting notices, and
where none waits the copier is told at once (R91) (assumption 16). -/
def CopyQueue.releasePort (q : CopyQueue) : CopyQueue :=
  { q with
    holder := .none
    offering := !q.requests.isEmpty
    copierWaits := q.copierWaits && !q.requests.isEmpty }

/-- The offer to the notices is over and the copier is told that the port is free (R91). -/
def CopyQueue.tellCopier (q : CopyQueue) : CopyQueue :=
  { q with offering := false, copierWaits := false }

/-- A request joins the notice request queue, or is dropped when 4 wait already (R95). -/
def CopyQueue.post (q : CopyQueue) (r : Request) : CopyQueue :=
  if q.requests.length < Config.requestCapacity then { q with requests := q.requests ++ [r] }
  else q

/-- The pointers come to rest (R99). With the punch switch at OFF the punch pointer is only moved
along with the print pointer (R100), and the in-run flag follows the run boundaries it goes past
(R128, R137); otherwise it passes entries that are not for it. Then passed entries leave (assumption 24). -/
def Mech.rest (m : Mech) : Mech :=
  let q := m.queue
  let pr := passOver Entry.forPrint q.entries q.printAt
  match m.punch.switch with
  | .off =>
    let pu := max q.punchAt pr
    let passed := (q.entries.drop q.punchAt).take (pu - q.punchAt)
    { m with
      queue := { q with printAt := pr, punchAt := pu }.leave
      punch := { m.punch with inRun := inRunAfter m.punch.inRun passed } }
  | _ =>
    let pu := passOver Entry.forPunch q.entries q.punchAt
    { m with queue := { q with printAt := pr, punchAt := pu }.leave }

/-- The printer hands the queue its take: the print pointer moves on (R124, R99). -/
def Mech.printTake (m : Mech) : Mech :=
  Mech.rest { m with queue := { m.queue with printAt := m.queue.printAt + 1 } }

/-- The punch hands the queue its take: the punch pointer moves on (R138, R99). -/
def Mech.punchTake (m : Mech) : Mech :=
  Mech.rest { m with queue := { m.queue with punchAt := m.queue.punchAt + 1 } }

end Sys2Proof.Machine
end

