-- ==== Sys2Proof/Machine/Printer.lean ====
section
/-! DEFINITION. The page printer (chapter 6): forming and issuing operations in queue order, the
motor and paper stops, faults, the wheel and the strike. -/

namespace Sys2Proof.Machine

open Sys2Proof

/-- An operation is in flight: a resource is held (R106, R107). -/
def Printer.busy (r : Printer) : Bool :=
  r.carriage != .free || r.platen != .free || r.hammer.isSome

/-- The carriage is held by a RETURN that will set the column (R118). -/
def Printer.returning (r : Printer) : Bool :=
  match r.carriage with
  | .ret _ live => live
  | _ => false

/-- The column is known and below the line length (R113, R115). -/
def Printer.belowEnd (p : Params) (r : Printer) : Bool :=
  match r.column with
  | some c => c < p.lineLength
  | none => false

/-- A bell request starts or restarts the 100 ms pulse (R125). -/
def Printer.ring (now : Ticks) (r : Printer) : Printer :=
  { r with bell := some (now + Config.bellTime) }

/-- An entry that needs no resource is taken at once (R108, R109): the printer after it, or none for
an entry that forms an operation. A held CONTROL takes whatever code follows it, the closing RETURN of
a notice too (assumption 52). -/
def Printer.instant (now : Ticks) (r : Printer) : Entry → Option Printer
  | .runStart | .runEnd => some { r with heldControl := false }
  | .gap _ _ => none
  | .char c damaged _ =>
    if damaged then none
    else if r.heldControl then
      some (if c = 4 then { r.ring now with heldControl := false }
            else { r with heldControl := false })
    else if c = 25 then some { r with heldControl := true }
    else if c = 29 then some { r with case := .numeric }
    else if c = 30 then some { r with case := .alpha }
    else if c = 0 ∨ c = 31 then some r
    else none

/-- The wheel position of a data code in a case: 24 × case + code − 1 (R108). -/
def strikeTarget (case : Case) (c : Code) : Nat :=
  match case with
  | .alpha => c.val - 1
  | .numeric => 24 + c.val - 1

/-- The operation of an entry that needs the mechanism (R108, R114). -/
def Printer.operation (r : Printer) : Entry → PrintOp
  | .char c damaged _ =>
    if damaged then .strike Config.errorMark
    else if c = 26 then .space
    else if c = 27 then .newline
    else if c = 28 then .ret
    else .strike (strikeTarget r.case c)
  | _ => .strike Config.errorMark

/-- A strike or a SPACE at the head while the at-margin flag is set calls for the wrap under WRAP
(R117). While a RETURN that will clear the flag is in flight it does not (assumption 9), unless that is
the RETURN of a wrap whose NEWLINE was withdrawn: then the wrap is formed again (assumption 27). -/
def Printer.needsWrap (p : Params) (r : Printer) (op : PrintOp) : Bool :=
  r.atMargin && !p.overprint && (!r.returning || r.wrapOwed) &&
    (match op with
     | .strike _ | .space => true
     | _ => false)

/-- The column is unknown and no RETURN is in flight that will establish it (R120). -/
def Printer.needsEstablish (r : Printer) : Bool := r.column.isNone && !r.returning

/-- The issue of an operation other than a strike: the printer after it, or none while a resource it
needs is held (R106, R115, R118, R119). -/
def Printer.issue (p : Params) (now : Ticks) (r : Printer) : PrintOp → Option Printer
  | .strike _ => none
  | .space =>
    if r.carriage = .free then
      let r := if p.unshift then { r with case := .alpha } else r
      some (if r.belowEnd p then
        { r with
          carriage := .step (now + ms p.carriageStep)
          column := r.column.map (· + 1)
          leftMargin := false }
      else { r with atMargin := true })
    else none
  | .newline =>
    if r.platen = .free then some { r with platen := .feed (now + ms p.lineTime) } else none
  | .ret =>
    if r.carriage = .free then
      some (if r.leftMargin then { r with column := some 1, atMargin := false }
            else { r with carriage := .ret (now + ms (10 * p.returnTimeout)) true })
    else none

/-- The printer takes entries and issues operations: IDLE or ACTIVE, no stop pending, the motor
RUNNING (R105, R106). -/
def Mech.printing (m : Mech) : Bool :=
  (m.printer.state == .idle || m.printer.state == .active) &&
    m.printer.stop == .none && m.motor.state == .running

/-- One move of the printer in queue order (R106): an internal operation is placed or issued, the
operation at the head is wrapped or issued and its entry taken, or the entry at the print pointer is
considered. None when nothing can be done now. -/
def Mech.printStep (p : Params) (now : Ticks) (m : Mech) : Option Mech :=
  let r := m.printer
  if !m.printing then none
  else match r.internals with
    | op :: rest =>
      (Printer.issue p now r op).map (fun r' => { m with printer := { r' with internals := rest } })
    | [] =>
      if r.needsEstablish then some { m with printer := { r with internals := [.ret] } }
      else match r.head with
        | some op =>
          if r.needsWrap p op then
            some { m with printer := { r with internals := [.ret, .newline], wrapOwed := false } }
          else
            (Printer.issue p now r op).map (fun r' =>
              Mech.printTake { m with printer := { r' with head := none, heldControl := false } })
        | none =>
          match m.queue.printEntry with
          | none => none
          | some e =>
            match r.instant now e with
            | some r' => some (Mech.printTake { m with printer := r' })
            | none => some { m with printer := { r with head := some (r.operation e) } }

/-- The printer goes on until nothing more can be done at this instant (R106). -/
def Mech.printRun (p : Params) (now : Ticks) : Nat → Mech → Mech
  | 0, m => m
  | n + 1, m =>
    match m.printStep p now with
    | none => m
    | some m' => Mech.printRun p now n m'

/-- More moves than the entries from the print pointer on can call for at one instant: each is
considered, wrapped by two internal operations and issued, after an establishing RETURN. -/
def Mech.printFuel (m : Mech) : Nat := 5 * (m.queue.entries.length - m.queue.printAt) + 8

/-- The printer's standing at the end of an event: a pending stop whose last reservation is released
takes effect (R105, R121), and a printer that works is IDLE or ACTIVE (R104, R106). -/
def Mech.printStand (m : Mech) : Mech :=
  let r := m.printer
  match r.stop with
  | .none =>
    if m.printing then
      let quiet := !r.busy && r.head.isNone && r.internals.isEmpty && m.queue.printEntry.isNone
      { m with printer := { r with state := if quiet then .idle else .active } }
    else m
  | .motor =>
    if r.busy then m
    else { m with printer := { r with state := if r.paper then .off else .paperOut, stop := .none } }
  | .paper =>
    if r.busy then m else { m with printer := { r with state := .paperOut, stop := .none } }

/-- An operation that waits is withdrawn, with its internal operations (R105, R121, R122) (assumption 28).
A wrap that has issued its RETURN and not its NEWLINE is owed until that RETURN ends (R117,
assumption 27). -/
def Printer.withdraw (r : Printer) : Printer :=
  { r with
    head := none
    internals := []
    wrapOwed := r.wrapOwed || (r.returning && r.internals.contains .newline) }

/-- The printer when the motor leaves RUNNING (R105). -/
def Printer.motorLeft (r : Printer) : Printer :=
  match r.state with
  | .idle => { r with state := .off }
  | .active =>
    if r.busy then { r.withdraw with stop := .motor } else { r.withdraw with state := .off }
  | _ => r

/-- The printer when the motor reaches RUNNING (R105): from OFF it works again, and a pending stop of
motor is cancelled, or becomes one of paper. -/
def Printer.motorReached (r : Printer) : Printer :=
  match r.state with
  | .off => { r with state := .idle }
  | .active =>
    if r.stop = .motor then { r with stop := if r.paper then .none else .paper } else r
  | _ => r

/-- The printer at a paper-out event (R121). -/
def Printer.paperGone (r : Printer) : Printer :=
  let r : Printer := { r with paper := false }
  match r.state with
  | .idle | .off => { r with state := .paperOut }
  | .active =>
    if r.busy then { r.withdraw with stop := if r.stop = .motor then .motor else .paper }
    else { r.withdraw with state := .paperOut }
  | _ => r

/-- The printer at a paper-in event (R121). -/
def Printer.paperBack (running : Bool) (r : Printer) : Printer :=
  let r : Printer := { r with paper := true }
  match r.state with
  | .paperOut => { r with state := if running then .idle else .off }
  | .active => { r with stop := if r.stop = .paper then .none else r.stop }
  | _ => r

/-- The printer enters FAULT (R122): what waits is withdrawn, no stop is pending, the column is
unknown, and a RETURN in flight will no longer set it. -/
def Printer.enterFault (r : Printer) : Printer :=
  { r.withdraw with
    state := .fault
    stop := .none
    column := none
    atMargin := false
    wrapOwed := false
    carriage :=
      match r.carriage with
      | .ret t _ => .ret t false
      | c => c }

/-- CLEAR takes the printer out of FAULT (R123); in any other state it does not act on it. -/
def Printer.clearFault (running : Bool) (r : Printer) : Printer :=
  if r.state = .fault then
    { r with
      mismatches := 0
      synced := false
      state := if !r.paper then .paperOut else if running then .idle else .off }
  else r

/-- The wheel count and the index check at a position event (R110, R111). The check goes on in FAULT, where a
correct index makes the mismatch count 0 as anywhere (assumption 56). -/
def Printer.wheelEvent (index : Bool) (r : Printer) : Printer :=
  if !index then { r with wheel := if r.wheel < 48 then r.wheel + 1 else 0 }
  else if !r.synced then { r with wheel := 0, synced := true }
  else if r.wheel = 48 then { r with wheel := 0, mismatches := 0 }
  else
    let r' := { r with wheel := 0, mismatches := min 3 (r.mismatches + 1) }
    if r'.mismatches = 3 ∧ r.state ≠ .fault then r'.enterFault else r'

/-- A strike at the head fires at this position event (R112). -/
def Mech.strikeReady (p : Params) (m : Mech) : Bool :=
  let r := m.printer
  match r.head with
  | some (.strike target) =>
    m.printing && r.internals.isEmpty && !r.needsEstablish && !r.needsWrap p (.strike target) &&
      r.synced && r.wheel == target && !r.busy
  | _ => false

/-- The firing of a strike (R113): hammer, platen and carriage are held, and the column goes up by 1
or the at-margin flag is set. -/
def Printer.fire (p : Params) (now : Ticks) (r : Printer) : Printer :=
  let pulseEnd := now + p.hammerPulse * 12
  { r with
    head := none
    heldControl := false
    hammer := some { pulseEnd := pulseEnd, recoveryEnd := pulseEnd + ms p.hammerRecovery, pulsing := true }
    platen := .strike
    carriage := .strike (r.belowEnd p)
    column := if r.belowEnd p then r.column.map (· + 1) else r.column
    atMargin := if r.belowEnd p then r.atMargin else true }

/-- A position event at the printer (R110 to R113). -/
def Mech.wheelEvent (p : Params) (now : Ticks) (index : Bool) (m : Mech) : Mech :=
  let m := { m with printer := m.printer.wheelEvent index }
  if m.strikeReady p then Mech.printTake { m with printer := m.printer.fire p now } else m

/-- The hammer pulse ends (R107, R113): the platen is freed, and the carriage steps or is freed. -/
def Printer.pulseEnd (p : Params) (r : Printer) (h : Hammer) : Printer :=
  { r with
    hammer := some { h with pulsing := false }
    platen := if r.platen = .strike then .free else r.platen
    carriage :=
      match r.carriage with
      | .strike true => .step (h.pulseEnd + ms p.carriageStep)
      | .strike false => .free
      | c => c
    leftMargin := if r.carriage = .strike true then false else r.leftMargin }

/-- The left-margin contact closes (R118): it ends a RETURN, and is disregarded otherwise. -/
def Printer.contact (r : Printer) : Printer :=
  match r.carriage with
  | .ret _ true =>
    { r with
      leftMargin := true
      carriage := .free
      column := some 1
      atMargin := false
      wrapOwed := false }
  | .ret _ false => { r with leftMargin := true, carriage := .free }
  | _ => { r with leftMargin := true }

/-- The return timeout expires (R118, R122). -/
def Printer.returnExpired (r : Printer) : Printer :=
  match r.carriage with
  | .ret _ true => { r with carriage := .free }.enterFault
  | .ret _ false => { r with carriage := .free }
  | _ => r

end Sys2Proof.Machine
end

