-- ==== Sys2Proof/Machine/Punch.lean ====
section
/-! DEFINITION. The tape punch (chapter 7): taking entries, cycles, the tape supply, feeding and the
switch. -/

namespace Sys2Proof.Machine

open Sys2Proof

/-- The tape is usable: present and not low (R126). -/
def Punch.tapeUsable (u : Punch) : Bool := u.tapePresent && !u.tapeLow

/-- The row an entry is punched as: a code as received, ERASE for a gap; none for a run boundary,
which is taken without a cycle (R128). -/
def Entry.row : Entry → Option Code
  | .char c _ _ => some c
  | .gap _ _ => some 31
  | .runStart | .runEnd => none

/-- A cycle is issued for a row (R129). -/
def Punch.cycleFor (p : Params) (now : Ticks) (row : Code) : PunchCycle where
  row := row
  issued := now
  pulseEnd := now + ms p.punchPulse
  magnets := true

/-- A feed cycle is a BLANK cycle (R135). -/
def Punch.feedCycle (p : Params) (now : Ticks) (u : Punch) : Punch :=
  { u with state := .cycling, cycle := some (Punch.cycleFor p now 0) }

/-- The punch may take the entry at its pointer now (R128): in TAPE-LOW-FINISH only inside the run it
is finishing (R133). -/
def Mech.punching (m : Mech) : Bool :=
  let u := m.punch
  (u.state == .idle || u.state == .cycling || (u.state == .tapeLowFinish && u.inRun)) &&
    m.motor.state == .running && u.switch != .off && u.feed == .none && u.cycle.isNone

/-- One take of the punch (R128): a cycle is issued for a row, and a run boundary is taken at once;
the RUN-END of a run finished on low tape brings TAPE-OUT (R133). -/
def Mech.punchStep (p : Params) (now : Ticks) (m : Mech) : Option Mech :=
  if !m.punching then none
  else match m.queue.punchEntry with
    | none => none
    | some e =>
      let u := m.punch
      let u' :=
        match e.row with
        | some row => { u with cycle := some (Punch.cycleFor p now row) }
        | none =>
          { u with
            inRun := e == .runStart
            state := if u.state = .tapeLowFinish ∧ e = .runEnd then .tapeOut else u.state }
      some (Mech.punchTake { m with punch := u' })

/-- The punch goes on until nothing more can be taken at this instant (R128). -/
def Mech.punchRun (p : Params) (now : Ticks) : Nat → Mech → Mech
  | 0, m => m
  | n + 1, m =>
    match m.punchStep p now with
    | none => m
    | some m' => Mech.punchRun p now n m'

/-- More takes than there are entries at the punch pointer. -/
def Mech.punchFuel (m : Mech) : Nat := m.queue.entries.length - m.queue.punchAt + 1

/-- The punch's standing at the end of an event: CYCLING while a cycle is in flight and IDLE
otherwise (R126), and TAPE-OUT where a run that was being finished is over, or cannot be finished
with the switch at OFF (R133, R137) (assumption 30). -/
def Mech.punchStand (m : Mech) : Mech :=
  let u := m.punch
  match u.state with
  | .idle | .cycling =>
    { m with punch := { u with state := if u.cycle.isSome then .cycling else .idle } }
  | .tapeLowFinish =>
    if u.cycle.isNone && (!u.inRun || u.switch == .off) then
      { m with punch := { u with state := .tapeOut } }
    else m
  | _ => m

/-- The readers act on the queue: the printer, then the punch (R106, R128). -/
def Mech.pump (p : Params) (now : Ticks) (m : Mech) : Mech :=
  let m := m.printRun p now m.printFuel
  m.punchRun p now m.punchFuel

/-- An entry is written: it joins the tail, the pointers come to rest, and each reader considers it at
the write (R99, R106, R128). -/
def Mech.write (p : Params) (now : Ticks) (e : Entry) (m : Mech) : Mech :=
  (Mech.rest { m with queue := m.queue.append e }).pump p now

/-- Entries written one after another. -/
def Mech.writeAll (p : Params) (now : Ticks) : List Entry → Mech → Mech
  | [], m => m
  | e :: es, m => Mech.writeAll p now es (m.write p now e)

/-- Feeding has to stop after the cycle in flight (R136): CONTINUOUS becomes ONE-SHOT, WAITING becomes
NONE. -/
def FeedMode.stopped : FeedMode → FeedMode
  | .continuous => .oneShot
  | .waiting => .none
  | f => f

/-- The punch when the motor leaves RUNNING (R127, R136). -/
def Punch.motorLeft (u : Punch) : Punch :=
  let u : Punch := { u with feed := u.feed.stopped }
  match u.state with
  | .idle => { u with state := .off }
  | .cycling => { u with stop := true }
  | _ => u

/-- The punch when the motor reaches RUNNING (R127, R135). -/
def Punch.motorReached (p : Params) (now : Ticks) (u : Punch) : Punch :=
  match u.state with
  | .off =>
    if u.feed = .waiting then
      if u.inRun then { u with state := .idle, feed := .none }
      else { u with feed := .continuous }.feedCycle p now
    else { u with state := .idle }
  | .cycling => { u with stop := false }
  | _ => u

/-- A cycle completes (R129): the pending stop, the tape, the switch and the feed mode decide what
follows (R127, R133, R134, R136, R137); the switch counts as it stands at the completion (assumption
49). -/
def Punch.complete (p : Params) (now : Ticks) (u : Punch) : Punch :=
  let u : Punch := { u with cycle := none, feed := if u.feed = .oneShot then .none else u.feed }
  match u.state with
  | .tapeLowFinish =>
    if !u.tapePresent || !u.inRun || u.switch == .off then { u with state := .tapeOut } else u
  | .cycling =>
    if u.stop then
      { u with stop := false, state := if u.tapeUsable then .off else .tapeOut }
    else if !u.tapePresent then { u with state := .tapeOut }
    else if u.feed = .continuous then u.feedCycle p now
    else { u with state := .idle }
  | _ => u

/-- The cycle timeout expires (R130). -/
def Punch.timedOut (u : Punch) : Punch :=
  { u with state := .fault, cycle := none, feed := .none, stop := false }

/-- CLEAR takes the punch out of FAULT (R131); in any other state it does not act on it. -/
def Punch.clearFault (running : Bool) (u : Punch) : Punch :=
  if u.state = .fault then
    { u with state := if !u.tapeUsable then .tapeOut else if running then .idle else .off }
  else u

/-- A tape-low event (R133). -/
def Punch.lowTape (u : Punch) : Punch :=
  let u : Punch := { u with tapeLow := true, tapePresent := true }
  match u.state with
  | .off | .idle =>
    if u.inRun then { u with state := .tapeLowFinish, stop := false, feed := .none }
    else { u with state := .tapeOut, feed := .none }
  | .cycling => { u with state := .tapeLowFinish, stop := false, feed := .none }
  | .tapeLowFinish | .tapeOut => { u with feed := .none }
  | .fault => u

/-- A tape-gone event (R134). -/
def Punch.goneTape (u : Punch) : Punch :=
  let u : Punch := { u with tapePresent := false }
  match u.state with
  | .off | .idle => { u with state := .tapeOut, feed := .none }
  | .cycling => { u with feed := .none }
  | .tapeLowFinish =>
    if u.cycle.isSome then { u with feed := .none } else { u with state := .tapeOut, feed := .none }
  | .tapeOut => { u with feed := .none }
  | .fault => u

/-- A tape-replaced event (R134). -/
def Punch.newTape (running : Bool) (u : Punch) : Punch :=
  let u : Punch := { u with tapeLow := false, tapePresent := true }
  let byMotor : PunchState := if running then .idle else .off
  match u.state with
  | .tapeOut => { u with state := byMotor }
  | .tapeLowFinish =>
    if u.cycle.isSome then { u with state := .cycling, stop := !running }
    else { u with state := byMotor }
  | _ => u

/-- TAPE FEED comes down at the punch (R135). -/
def Punch.feedDown (p : Params) (now : Ticks) (u : Punch) : Punch :=
  if u.switch = .off ∨ u.feed ≠ .none ∨ u.inRun = true then u
  else match u.state with
    | .idle => { u with feed := .continuous }.feedCycle p now
    | .off => { u with feed := .waiting }
    | _ => u

/-- TAPE FEED is released at the punch (R136). -/
def Punch.feedUp (u : Punch) : Punch := { u with feed := u.feed.stopped }

/-- The punch switch reaches a position (R137): at OFF feeding stops (R136), and a run that was being
finished cannot be (see `Mech.punchStand`). -/
def Punch.setSwitch (pos : PunchSwitch) (u : Punch) : Punch :=
  { u with switch := pos, feed := if pos = .off then u.feed.stopped else u.feed }

end Sys2Proof.Machine
end

