-- ==== Sys2Proof/Machine/Motor.lean ====
section
/-! DEFINITION. Motor control (chapter 9), and the settling of the mechanism at the end of an event:
readers, demand, idle timer. -/

namespace Sys2Proof.Machine

open Sys2Proof

/-- The printer can act on an entry at its pointer (R162, R124). -/
def Printer.canAct (r : Printer) : Bool :=
  match r.state with
  | .off | .idle => true
  | .active => r.stop == .none
  | _ => false

/-- The punch can act on an entry at its pointer (R162, R138). -/
def Punch.canAct (u : Punch) : Bool :=
  u.switch != .off &&
    match u.state with
    | .off | .idle | .cycling | .tapeLowFinish => true
    | _ => false

/-- There is demand for the motor (R162). -/
def Mech.demand (m : Mech) : Bool :=
  (m.printer.canAct && m.queue.printEntry.isSome) ||
    (m.punch.canAct && m.queue.punchEntry.isSome) ||
    m.punch.feed == .waiting || m.punch.feed == .continuous

/-- A start event (R162, R163): an OFF motor enters STARTING and its run-up timer starts. -/
def Motor.startEvent (p : Params) (now : Ticks) (d : Motor) : Motor :=
  if d.state = .off then { d with state := .starting, runUp := some (now + ms (10 * p.runUp)) }
  else d

/-- A running idle timer restarts from the full idle time of the present mode (R165). -/
def Motor.restartIdle (p : Params) (now : Ticks) (d : Motor) : Motor :=
  if d.idle.isSome then { d with idle := some (now + p.idleTime d.mode) } else d

/-- A keyboard down event at motor control (R162, R165): a start event for an OFF motor, a restart of
the idle timer for a RUNNING one. -/
def Motor.keyEvent (p : Params) (now : Ticks) (d : Motor) : Motor :=
  (d.startEvent p now).restartIdle p now

/-- The mechanism is quiet (R165). -/
def Mech.quiet (m : Mech) : Bool :=
  !m.demand &&
    (m.printer.state == .idle || m.printer.state == .paperOut || m.printer.state == .fault) &&
    (m.punch.state == .idle || m.punch.state == .tapeOut || m.punch.state == .fault ||
      (m.punch.switch == .off && m.punch.cycle.isNone) ||
      (m.punch.state == .tapeLowFinish && m.punch.cycle.isNone && m.queue.punchEntry.isNone)) &&
    m.queue.holder != .receive

/-- The motor looks at demand (R162). -/
def Mech.lookAtDemand (p : Params) (now : Ticks) (m : Mech) : Mech :=
  if m.demand then { m with motor := m.motor.startEvent p now } else m

/-- The idle timer runs exactly while the motor is RUNNING and the mechanism is quiet, from the event
that made it so (R165, assumption 10). -/
def Mech.watchIdle (p : Params) (now : Ticks) (m : Mech) : Mech :=
  let timer :=
    if m.motor.state = .running ∧ m.quiet = true then
      match m.motor.idle with
      | some t => some t
      | none => some (now + p.idleTime m.motor.mode)
    else none
  { m with motor := { m.motor with idle := timer } }

/-- The mechanism settles at the end of an event: pending stops take effect, the readers act, and
motor control looks at demand and at quiet. -/
def Mech.settle (p : Params) (now : Ticks) (m : Mech) : Mech :=
  (((m.printStand.pump p now).printStand.punchStand).lookAtDemand p now).watchIdle p now

/-- The motor leaves RUNNING for OFF or FAULT, MOTOR ON released and both timers stopped; the printer
and the punch see it (R105, R127, R164, R165). -/
def Mech.motorLeaves (target : MotorState) (m : Mech) : Mech :=
  { m with
    motor := { m.motor with state := target, runUp := none, idle := none }
    printer := m.printer.motorLeft
    punch := m.punch.motorLeft }

/-- The motor reaches RUNNING (R163); the printer and the punch see it (R105, R127). -/
def Mech.motorReaches (p : Params) (now : Ticks) (m : Mech) : Mech :=
  { m with
    motor := { m.motor with state := .running, runUp := none, idle := none }
    printer := m.printer.motorReached
    punch := m.punch.motorReached p now }

/-- The run-up timer expires (R163): the speed flag is read once. -/
def Mech.runUpExpired (p : Params) (now : Ticks) (m : Mech) : Mech :=
  if m.motor.speedOk then m.motorReaches p now
  else { m with motor := { m.motor with state := .fault, runUp := none, idle := none } }

/-- SPEED OK changes (R164): the flag follows it, and a loss of speed while RUNNING gives FAULT. -/
def Mech.speedChanged (ok : Bool) (m : Mech) : Mech :=
  let m' := { m with motor := { m.motor with speedOk := ok } }
  if !ok && m.motor.state == .running then m'.motorLeaves .fault else m'

/-- CLEAR at the motor (R166): FAULT goes to OFF with both timers stopped. -/
def Motor.clearFault (d : Motor) : Motor :=
  if d.state = .fault then { d with state := .off, runUp := none, idle := none } else d

/-- The mechanism of a state, with its parameters and clock. -/
def State.onMech (s : State) (f : Params → Ticks → Mech → Mech) : State :=
  { s with mech := f s.loader.params s.now s.mech }

/-- The mechanism settles at the end of an event. -/
def State.settle (s : State) : State := s.onMech Mech.settle

/-- A bell request (R125). -/
def State.ring (s : State) : State :=
  s.onMech fun _ now m => { m with printer := m.printer.ring now }

/-- The motor state read by the composer: RUNNING or FAULT (R141). -/
def State.keysTaken (s : State) : Bool :=
  s.mech.motor.state == .running || s.mech.motor.state == .fault

end Sys2Proof.Machine
end

