-- ==== Sys2Proof/Machine/Log.lean ====
section
/-! DEFINITION. The traffic log and the notice builder (chapter 10). -/

namespace Sys2Proof.Machine

open Sys2Proof

/-- A log record is finished when its outcome is present (R171). -/
def LogRecord.finished (r : LogRecord) : Bool :=
  match r.body with
  | .outgoing _ _ o _ _ _ _ => o.isSome
  | .incoming _ _ o _ => o.isSome

/-- The first value from the counter on that no record in the log holds (R172). -/
def freeNumber (records : List LogRecord) : Nat → Nat → Nat
  | 0, n => n
  | k + 1, n => if records.any (·.number == n) then freeNumber records k ((n + 1) % 256) else n

/-- The oldest finished record leaves (R172). -/
def dropOldestFinished : List LogRecord → List LogRecord
  | [] => []
  | r :: rs => if r.finished then rs else r :: dropOldestFinished rs

/-- A new record is created (R172): the oldest finished record leaves a full log, the record takes a
free number from the counter, and the counter goes on behind it. Answers the number given. -/
def Log.create (l : Log) (seq : Code) (body : LogBody) : Log × Nat :=
  let kept :=
    if Config.logCapacity ≤ l.records.length then dropOldestFinished l.records else l.records
  let n := freeNumber kept 256 l.counter
  ({ records := kept ++ [{ number := n, seq := seq, chars := 0, body := body }]
     counter := (n + 1) % 256 }, n)

/-- A record that is not finished is changed by `f`; a finished one never changes again (R171). -/
def Log.update (l : Log) (n : Nat) (f : LogRecord → LogRecord) : Log :=
  { l with records := l.records.map fun r => if r.number = n ∧ r.finished = false then f r else r }

/-- The log record of a message the composer closes READY (R173). -/
def Log.closeReady (l : Log) (n : Nat) (station kind : Code) (length : Nat) : Log :=
  l.update n fun r =>
    match r.body with
    | .outgoing _ _ o a c x y =>
      { r with chars := length, body := .outgoing (some station) (some kind) o a c x y }
    | .incoming .. => r

/-- An outgoing record is finished by the transmitter (R64, R173). -/
def Log.finishOut (l : Log) (n : Nat) (o : OutOutcome) (answers : List AnswerEntry)
    (content : Content) (collisions retries : Nat) : Log :=
  l.update n fun r =>
    match r.body with
    | .outgoing p k _ _ _ _ _ =>
      { r with body := .outgoing p k (some o) answers content collisions retries }
    | .incoming .. => r

/-- The outgoing record of a discarded COMPOSING record is finished CANCELLED (R173). -/
def Log.finishDiscard (l : Log) (n : Nat) : Log :=
  l.update n fun r =>
    match r.body with
    | .outgoing p k _ a c x y => { r with body := .outgoing p k (some .cancelled) a c x y }
    | .incoming .. => r

/-- The incoming record is finished at the event that ends its message (R174). -/
def Log.finishIn (l : Log) (n : Nat) (o : InOutcome) (chars lost : Nat) : Log :=
  l.update n fun r =>
    match r.body with
    | .incoming p k _ _ => { r with chars := chars, body := .incoming p k (some o) lost }
    | .outgoing .. => r

/-- The outcome digit of an outgoing record (R176). -/
def OutOutcome.digit : OutOutcome → Nat
  | .delivered => 1
  | .partialDelivery => 2
  | .undelivered => 3
  | .interrupted => 4
  | .lineFailed => 5
  | .cancelled => 6
  | .answered => 7

/-- The outcome digit of an incoming record (R179). -/
def InOutcome.digit : InOutcome → Nat
  | .complete => 1
  | .heldComplete => 2
  | .checkFailed => 3
  | .overrun => 4
  | .refused => 5
  | .cancelled => 6
  | .answered => 7
  | .broken => 8
  | .duplicate => 9

/-- The content part of a delivery notice (R176, steps 5 and 6). -/
def contentCodes : Content → List Code
  | .none => []
  | .answerBack codes => 26 :: 30 :: codes
  | .status values => values.flatMap fun v => 26 :: digits2 v.val

/-- The delivery notice of a finished outgoing record (R176); none for a record that is not one. -/
def deliveryNotice (r : LogRecord) : Option (List Code) :=
  match r.body with
  | .outgoing _ _ (some o) answers content _ _ =>
    some ([28, 27, 29] ++ digits2 r.seq.val ++ [26, digit o.digit] ++
      (answers.flatMap fun a => 26 :: digits2 a.station.val ++ [digit a.response.val]) ++
      contentCodes content ++ [28, 27])
  | _ => none

/-- A field of the log notice: two digits, 9 and 9 while it is absent (R175). -/
def fieldDigits : Option Code → List Code
  | some c => digits2 c.val
  | none => [10, 10]

/-- The line of one record in the log notice (R179). -/
def logLine (r : LogRecord) : List Code :=
  match r.body with
  | .incoming peer kind o lost =>
    digits3 r.number ++ [26, digit 1, 26] ++ digits2 peer.val ++ [26] ++ digits2 kind.val ++ [26] ++
      digits2 r.seq.val ++ [26, digit ((o.map InOutcome.digit).getD 0), 26] ++ digits5 r.chars ++
      [26] ++ digits3 lost
  | .outgoing peer kind o _ _ collisions retries =>
    digits3 r.number ++ [26, digit 2, 26] ++ fieldDigits peer ++ [26] ++ fieldDigits kind ++ [26] ++
      digits2 r.seq.val ++ [26, digit ((o.map OutOutcome.digit).getD 0), 26] ++ digits5 r.chars ++
      [26, digit 0, digit collisions, digit retries]

/-- The log notice (R179). -/
def logNotice (l : Log) : List Code :=
  [28, 27, 29] ++ l.records.flatMap fun r => logLine r ++ [28, 27]

/-- The start notice (R180): the configured number for state 0, and 31 otherwise. -/
def startNotice (own : Option Code) (state : Nat) : List Code :=
  [28, 27, 29] ++ digits2 (if state = 0 then (own.getD 31).val else 31) ++
    [26, digit state, 28, 27]

/-- The in-run notice (R178): the originator and the notice digit. -/
def inRunNotice (originator : Code) (noticeDigit : Nat) : List Code :=
  [28, 27, 29] ++ digits2 originator.val ++ [26, digit noticeDigit]

/-- The notice of a request as the log and the request stand (R97, R177): none where the record of a
delivery notice has left the log. -/
def formNotice (own : Option Code) (l : Log) : Request → Option (List Code)
  | .delivery n =>
    match l.records.find? (·.number == n) with
    | some r => deliveryNotice r
    | none => none
  | .log => some (logNotice l)
  | .start d => some (startNotice own d)

/-- A notice entry: a print-only CHAR without damage (R175). -/
def printChar (c : Code) : Entry := .char c false .print

end Sys2Proof.Machine
end

