-- ==== Sys2Proof/Machine/Records.lean ====
section
/-! DEFINITION. The outgoing table and the send store, the local copier and the local run, and the
writing of notices (chapters 5 and 8). -/

namespace Sys2Proof.Machine

open Sys2Proof

/-! ### Records -/

/-- The message of a message record. -/
def OutRecord.message (r : OutRecord) : Option Message :=
  match r.body with
  | .message m => some m
  | .text _ => none

/-- A record with its message changed by `f`. -/
def OutRecord.withMessage (f : Message → Message) (r : OutRecord) : OutRecord :=
  match r.body with
  | .message m => { r with body := .message (f m) }
  | .text _ => r

/-- The state of a message record. -/
def OutRecord.inState (st : MessageState) (r : OutRecord) : Bool :=
  match r.body with
  | .message m => m.state == st
  | .text _ => false

/-- A record is closed: a message from READY on, a local record that is CLOSED (R143). -/
def OutRecord.closed (r : OutRecord) : Bool :=
  match r.body with
  | .message m => m.state != .composing
  | .text isOpen => !isOpen

/-- A message record is settled (R43). -/
def OutRecord.isDone (r : OutRecord) : Bool :=
  match r.body with
  | .message m => match m.state with | .done _ => true | _ => false
  | .text _ => false

/-- The open local record (R143). -/
def OutRecord.isOpenText (r : OutRecord) : Bool :=
  match r.body with
  | .text isOpen => isOpen
  | .message _ => false

/-- The active record: in CONTENDING, SENDING or ANSWERING (R45). -/
def OutRecord.isActive (r : OutRecord) : Bool :=
  r.inState .contending || r.inState .sending || r.inState .answering

/-- A record is finished: copied in full, and DONE if it is a message (R144). -/
def OutRecord.finished (r : OutRecord) : Bool :=
  r.copied && match r.body with
    | .message _ => r.isDone
    | .text _ => true

/-- The active record's message, if there is one (R45). -/
def State.active (s : State) : Option Message := (s.table.find? (·.isActive)).bind OutRecord.message

/-- The active record changed by `f`. -/
def State.onActive (s : State) (f : Message → Message) : State :=
  { s with table := onFirst OutRecord.isActive (OutRecord.withMessage f) s.table }

/-- The free space of the send store (R142). -/
def Store.free (st : Store) : Nat := Config.storeCapacity - st.chars.length

/-- The text of a record: its length of characters from its place in the circle (R142, R143). -/
def Store.textOf (st : Store) (r : OutRecord) : List Code :=
  (st.chars.drop ((r.start + Config.storeCapacity - st.base) % Config.storeCapacity)).take r.length

/-- The newest record, the one that may be unclosed (R143). -/
def State.newest (s : State) : Option OutRecord := s.table.getLast?

/-- There is an open local record (R146). -/
def State.hasOpenText (s : State) : Bool := s.newest.any OutRecord.isOpenText

/-- A record is made at the newest end of the table and of the store (R143). -/
def State.makeRecord (s : State) (body : RecordBody) : State :=
  { s with
    table := s.table ++ [{
      start := (s.store.base + s.store.chars.length) % Config.storeCapacity
      length := 0
      progress := 0
      copied := false
      body := body }] }

/-- Characters join the newest end of the store and belong to the newest record (R142). -/
def State.storeChars (s : State) (cs : List Code) : State :=
  { s with
    store := { s.store with chars := s.store.chars ++ cs }
    table := onLast (fun r => { r with length := r.length + cs.length }) s.table }

/-- Finished records at the oldest end give back their text and leave the table (R144). -/
def State.giveBack (s : State) : State :=
  let gone := s.table.takeWhile OutRecord.finished
  let n := (gone.map OutRecord.length).sum
  { s with
    table := s.table.drop gone.length
    store := {
      base := (s.store.base + n) % Config.storeCapacity
      chars := s.store.chars.drop n } }

/-- The oldest READY message record becomes active when no record is (R45). -/
def State.activate (s : State) : State :=
  if s.table.any (·.isActive) then s
  else
    { s with
      table := onFirst (OutRecord.inState .ready)
        (OutRecord.withMessage fun m => { m with state := .contending }) s.table }

/-! ### Writing to the copy queue -/

/-- Entries written one after another at the tail. -/
def State.writeAll (s : State) (es : List Entry) : State :=
  s.onMech fun p now m => m.writeAll p now es

/-- One entry written at the tail. -/
def State.write (s : State) (e : Entry) : State := s.onMech fun p now m => m.write p now e

/-- The queue of a state changed by `f`. -/
def State.onQueue (s : State) (f : CopyQueue → CopyQueue) : State :=
  s.onMech fun _ _ m => { m with queue := f m.queue }

/-- The local run's close at the end of its record (R92, R155, R156): an open run's RUN-END goes into
its kept entry and the port is released; a suspended one only ends. -/
def State.closeLocalRun (s : State) : State :=
  match s.mech.queue.localRun with
  | .none => s
  | .opened =>
    (s.write .runEnd).onQueue fun q => { q.releasePort with localRun := .none }
  | .suspended => s.onQueue fun q => { q with localRun := .none, copierWaits := false }

/-- An open local run is suspended (R93): its RUN-END goes into its kept entry. -/
def State.suspendLocalRun (s : State) : State :=
  if s.mech.queue.localRun = .opened then
    (s.write .runEnd).onQueue fun q => { q with localRun := .suspended, holder := .none }
  else s

/-! ### The local copier (R155) -/

/-- The copier's current record: the oldest whose local copy is not complete. -/
def State.copying (s : State) : Option OutRecord := s.table.find? (fun r => !r.copied)

/-- A closed record whose progress has reached its length is complete (R155): its local run is
closed, it is marked complete, the give-back is looked at, and the next one becomes current. -/
def State.completeCopies : Nat → State → State
  | 0, s => s
  | n + 1, s =>
    match s.copying with
    | none => s
    | some r =>
      if r.closed && r.progress == r.length then
        let s := s.closeLocalRun
        State.completeCopies n
          { s with
            table := onFirst (fun r => !r.copied) (fun r => { r with copied := true }) s.table
            copier := Copier.reset }.giveBack
      else s

/-- The copier looks at its current record after each event at the records. -/
def State.copierLooks (s : State) : State := s.completeCopies s.table.length

/-- The case of a text after a code that stands for itself (R94): ALPHA, NUMERIC and, under
unshift-on-space, SPACE change it (assumptions 17, 48). -/
def caseAfter (unshift : Bool) (c : Code) (k : Option Case) : Option Case :=
  if c = 29 then some .numeric
  else if c = 30 then some .alpha
  else if c = 26 ∧ unshift = true then some .alpha
  else k

/-- The copier after it has written `c` (R94): the current case is the one the printer will hold, at
which a code that completes a pair changes nothing (R109). A CONTROL that is the first code written to
an open run, or follows a completed pair, begins one. -/
def Copier.after (unshift : Bool) (c : Code) (k : Copier) : Copier :=
  if k.inPair then { k with inPair := false }
  else { case := caseAfter unshift c k.case, inPair := c == 25 }

/-- The copier when it begins or reopens a run: a CONTROL left in the run before it is discarded at that
run's RUN-END (R109). -/
def Copier.newRun (k : Copier) : Copier := { k with inPair := false }

/-- The destinations of a local run's text (R92). -/
def localDest (punched : Bool) : Dest := if punched then .both else .print

/-- The opener of a local run (R92): RETURN and NEWLINE, and for a run that was suspended the
copier's current case. -/
def localOpener (run : LocalRun) (k : Option Case) : List Entry :=
  [printChar 28, printChar 27] ++
    match run, k with
    | .suspended, some c => [printChar (caseCode c)]
    | _, _ => []

/-- The port refuses the copier's writes now (R90, R91, R98). -/
def CopyQueue.refusesCopier (q : CopyQueue) : Bool :=
  q.holder == .receive || q.offering || q.watermark == .stopped

/-- The copier offers the character `c` (R92): a local run is opened or reopened with it, or it is
written to the open run. None where the write is refused. -/
def State.offer (s : State) (c : Code) : Option State :=
  let q := s.mech.queue
  if q.refusesCopier then none
  else if q.holder = .localRun then
    if 2 ≤ q.free then some (s.write (.char c false (localDest q.localPunch))) else none
  else
    let punched := s.mech.punch.switch == .locally
    let opener := localOpener q.localRun s.copier.case
    if opener.length + 3 ≤ q.free then
      let s := s.onQueue fun q =>
        { q with holder := .localRun, localRun := .opened, localPunch := punched }
      some (s.writeAll ([.runStart] ++ opener ++ [.char c false (localDest punched)]))
    else none

/-- One offer of the copier (R155): a write that is taken moves the progress on, a refused one leaves
the character waiting until the copier is told. The case code of an opener leaves the copier's case. -/
def State.copierWrites (s : State) : State :=
  match s.copying with
  | none => s
  | some r =>
    match (s.store.textOf r)[r.progress]? with
    | none => s
    | some c =>
      match s.offer c with
      | none => s.onQueue fun q => { q with copierWaits := true }
      | some s' =>
        let k : Copier :=
          if s.mech.queue.holder = PortHolder.localRun then s.copier else s.copier.newRun
        { s' with
          table := onFirst (fun r => !r.copied) (fun r => { r with progress := r.progress + 1 })
            s'.table
          copier := k.after s.loader.params.unshift c }.copierLooks.settle

/-! ### Notices (R95 to R97) -/

/-- A request is posted to the notice request queue (R95). -/
def State.post (s : State) (r : Request) : State := s.onQueue fun q => q.post r

/-- The head request leaves the request queue: the next head is to be tested before the copier
writes (R96), and where none is left the offer of the port is over. -/
def CopyQueue.popRequest (q : CopyQueue) : CopyQueue :=
  let q : CopyQueue := { q with requests := q.requests.tail, offering := true }
  if q.requests.isEmpty then q.tellCopier else q

/-- The entries of a notice run (R96). -/
def noticeRun (codes : List Code) : List Entry :=
  [.runStart] ++ codes.map printChar ++ [.runEnd]

/-- The head request is tested (R96, R97): it waits, neither formed nor dropped, while a receive run holds
the port (assumption 54), it waits while its run does not fit, it is dropped where no notice can be formed
or the run could never fit, and it is otherwise written whole, an open local run being suspended before
it. -/
def State.testNotice (s : State) : State :=
  let q := s.mech.queue
  if q.holder = .receive then s
  else match q.requests with
    | [] => s.onQueue CopyQueue.tellCopier
    | r :: _ =>
      match formNotice s.loader.params.own s.log r with
      | none => s.onQueue CopyQueue.popRequest
      | some codes =>
        let run := noticeRun codes
        if Config.copyCapacity < run.length then s.onQueue CopyQueue.popRequest
        else if run.length ≤ q.freeForOther then
          (s.suspendLocalRun.writeAll run).onQueue fun q =>
            { q with holder := .none }.popRequest
        else s.onQueue CopyQueue.tellCopier

end Sys2Proof.Machine
end

