-- ==== Sys2Proof/Machine/Transmitter.lean ====
section
/-! DEFINITION. The transmitter (chapter 3): what it supplies to the keyer, how it reads answers, how
it judges and settles a message, and its answers to collisions, breaks and cancel requests. -/

namespace Sys2Proof.Machine

open Sys2Proof

/-! ### Settling (R64) -/

/-- A record reaches its final outcome (R64): it is DONE and keeps the content of its answer (R62), the log
is handed the outcome with that content, a delivery notice is requested, and the active place is released;
then the composer looks at the oldest record (R144). -/
def State.finishMessage (s : State) (o : OutOutcome) (content : Content) : State :=
  match s.active with
  | none => s
  | some m =>
    let s := s.onActive fun m => { m with state := .done o, content := content }
    let s := { s with
      log := s.log.finishOut m.logNumber o m.answers content m.collisions m.retries
      transmitter := { s.transmitter with attempt := none, heard := [] } }
    ((s.post (.delivery m.logNumber)).activate).giveBack

/-- The active record returns to CONTENDING (R53, R63). -/
def State.contendAgain (s : State) (f : Message → Message) : State :=
  { s.onActive (fun m => { f m with state := .contending }) with
    transmitter := { s.transmitter with attempt := none, heard := [] } }

/-- A collision (R53): the eighth is not counted and ends the record LINE-FAILED. -/
def State.collision (s : State) : State :=
  match s.active with
  | none => s
  | some m =>
    if 7 ≤ m.collisions then s.finishMessage .lineFailed .none
    else s.contendAgain fun m => { m with collisions := m.collisions + 1 }

/-- The active record is SENDING. -/
def State.sendingNow (s : State) : Bool := s.active.any (·.state == .sending)

/-- The active record is ANSWERING. -/
def State.answeringNow (s : State) : Bool := s.active.any (·.state == .answering)

/-- A record that is SENDING ends INTERRUPTED (R52, R54). -/
def State.interrupt (s : State) : State :=
  if s.sendingNow then s.finishMessage .interrupted .none else s

/-! ### Supplying characters (R50, R51, R55) -/

/-- The kind an attempt carries: the base kind, and 16 more once a retry was used (R50). -/
def Message.sentKind (m : Message) : Code :=
  if m.retries = 0 then m.kind else toCode (m.kind.val + 16)

/-- The five header characters of an attempt (R50). -/
def Message.header (m : Message) (own : Code) : List Code :=
  [m.group, m.station, own, m.sentKind, m.seq]

/-- A covered character is supplied: the sender's accumulator follows it (R51). -/
def Attempt.cover (a : Attempt) (c : Code) (next : Stage) : Attempt :=
  let f := feedCheck a.acc a.temp c
  { a with acc := f.1, temp := f.2, stage := next }

/-- A function that would end or break the message, or a missing one, is supplied as 0 (R50). -/
def sentFunction : Option Code → Code
  | none => 0
  | some c => if c = 1 ∨ c = 2 ∨ c = 3 then 0 else c

/-- The next character the transmitter supplies, and the attempt after it (R50, R51, R55): `head` is
the header, `text` the stored text. -/
def Attempt.supply (a : Attempt) (head text : List Code) : Attempt × Option Code :=
  match a.stage with
  | .opening => ({ a with acc := 0, temp := none, stage := .header 0 }, some 1)
  | .header n =>
    let c := head.getD n 0
    (a.cover c (if n < 4 then .header (n + 1) else .text 0 false), some c)
  | .text pos true =>
    let c := sentFunction text[pos]?
    (a.cover c (.text (min (pos + 1) text.length) false), some c)
  | .text pos false =>
    if a.cancel then ({ a with stage := .cancelFunction }, some 25)
    else match text[pos]? with
      | some c => (a.cover c (.text (pos + 1) (c == 25)), some c)
      | none => ({ a with stage := .closingEnd }, some 25)
  | .closingEnd =>
    if a.cancel then ({ a with stage := .finished true }, some 3)
    else ({ a with acc := padCheck a.acc a.temp, temp := none, stage := .checkHigh }, some 2)
  | .checkHigh => ({ a with stage := .checkLow }, some (toCode ((1023 - a.acc) / 32)))
  | .checkLow => ({ a with stage := .finished false }, some (toCode ((1023 - a.acc) % 32)))
  | .cancelFunction => ({ a with stage := .finished true }, some 3)
  | .finished _ => (a, none)

/-- The transmitter is asked for the next character of MESSAGE (R37): none where no attempt goes on. -/
def State.messageSupply (s : State) : State × Option Code :=
  match s.transmitter.attempt, s.table.find? (·.isActive) with
  | some a, some r =>
    match r.body with
    | .message m =>
      let text := if m.kind = 4 ∨ m.kind = 5 then [] else s.store.textOf r
      let out := a.supply (m.header (s.loader.params.own.getD 0)) text
      ({ s with transmitter := { s.transmitter with attempt := some out.1 } }, out.2)
    | .text _ => (s, none)
  | _, _ => (s, none)

/-! ### Answers (R57 to R62) -/

/-- The responses 1 to 5 (R13). -/
def isResponse (c : Code) : Bool := 1 ≤ c.val && c.val ≤ 5

/-- The characters of slot `k`: those that started in it, none from before T0 (R57). -/
def slotChars (t0 slot k : Nat) (heard : List RxChar) : List RxChar :=
  heard.filter fun c => t0 ≤ c.start && (c.start - t0) / slot == k

/-- The entry of slot `k` (R57). -/
def slotEntry (k : Nat) : List RxChar → Option AnswerEntry
  | [] => none
  | [a, b] =>
    if b.code.val = k ∧ isResponse a.code = true ∧ a.damaged = false ∧ b.damaged = false then
      some { station := toCode k, response := a.code }
    else some { station := toCode k, response := 0 }
  | _ => some { station := toCode k, response := 0 }

/-- The entries of a slotted phase, in station order (R57). -/
def slotEntries (n t0 slot : Nat) (heard : List RxChar) : List AnswerEntry :=
  (List.range n).filterMap fun k => slotEntry k (slotChars t0 slot k heard)

/-- What a free phase gave (R58). -/
inductive FreeAnswer where
  | silent
  | garbled
  | valid (entry : AnswerEntry) (content : Content)
deriving DecidableEq, Repr

/-- The content an ACK or HELD carries for a kind, if the rest of the answer has the length it
requires (R58). -/
def answerContent (kind : Code) : List Code → Option Content
  | rest =>
    if kind = 4 then
      match rest with
      | n :: codes =>
        if 1 ≤ n.val ∧ n.val ≤ 20 ∧ codes.length = n.val then some (.answerBack codes) else none
      | [] => none
    else if kind = 5 then if rest.length = 6 then some (.status rest) else none
    else if rest = [] then some .none else none

/-- The one answer of a free phase (R58). -/
def freeAnswer (kind : Code) (heard : List RxChar) : FreeAnswer :=
  match heard with
  | [] => .silent
  | a :: b :: rest =>
    if heard.all (fun c => !c.damaged) && isResponse a.code && b.code.val ≤ 30 then
      let entry : AnswerEntry := { station := b.code, response := a.code }
      if a.code = 1 ∨ a.code = 2 then
        match answerContent kind (rest.map RxChar.code) with
        | some content => .valid entry content
        | none => .garbled
      else if rest = [] then .valid entry .none else .garbled
    else .garbled
  | _ => .garbled

/-- The entries of an answer phase: by slot, or the one free answer, a garbled one standing under the
destination station (R57, R58). -/
def phaseEntries (p : Params) (m : Message) (ph : Phase) (heard : List RxChar) : List AnswerEntry :=
  if ph.isFree then
    match freeAnswer m.kind heard with
    | .silent => []
    | .garbled => [{ station := m.station, response := 0 }]
    | .valid e _ => [e]
  else slotEntries p.slots ph.t0 p.slot heard

/-- An entry joins the merged answer list in station order, in place of an older one for the same
station (R59). -/
def mergeEntry (e : AnswerEntry) : List AnswerEntry → List AnswerEntry
  | [] => [e]
  | a :: rest =>
    if e.station = a.station then e :: rest
    else if e.station < a.station then e :: a :: rest
    else a :: mergeEntry e rest

/-- The phase's entries merged into the list (R59). -/
def mergeEntries (entries list : List AnswerEntry) : List AnswerEntry :=
  entries.foldl (fun l e => mergeEntry e l) list

/-- The judgement of a phase (R60 to R62). -/
inductive Verdict where
  | settled (o : OutOutcome) (content : Content)
  | retry
deriving DecidableEq, Repr

/-- A retry while the retries used are below the limit, and UNDELIVERED otherwise (R63). -/
def retryOr (p : Params) (m : Message) : Verdict :=
  if m.retries < p.retryLimit then .retry else .settled .undelivered .none

/-- The destination is one station: no group, and not all (R60). -/
def Message.individual (m : Message) : Bool := m.group == 0 && m.station != 31

/-- The kind asks for text to be copied (R60). -/
def isTextKind (kind : Code) : Bool := 1 ≤ kind.val && kind.val ≤ 3

/-- An individual text message is judged on its destination's entry in this phase (R60). -/
def judgeIndividual (p : Params) (m : Message) (entries : List AnswerEntry) : Verdict :=
  match entries.find? (·.station == m.station) with
  | some e =>
    if e.response = 1 ∨ e.response = 2 then .settled .delivered .none
    else if e.response = 5 then .settled .undelivered .none
    else retryOr p m
  | none => retryOr p m

/-- A group or all message, or a slotted ENQUIRY or STATUS, is judged on the merged list (R61). -/
def judgeGroup (p : Params) (m : Message) (merged : List AnswerEntry) : Verdict :=
  let failed := merged.any fun e => e.response == 3 || e.response == 4
  let taken := merged.any fun e => e.response == 1 || e.response == 2
  if failed && decide (m.retries < p.retryLimit) then .retry
  else if taken && !failed then .settled .delivered .none
  else if taken then .settled .partialDelivery .none
  else .settled .undelivered .none

/-- An ENQUIRY or STATUS whose phase was free is judged on its one answer (R62). -/
def judgeFree (p : Params) (m : Message) (heard : List RxChar) : Verdict :=
  match freeAnswer m.kind heard with
  | .valid e content =>
    if e.response = 1 ∨ e.response = 2 then .settled .answered content
    else if e.response = 5 then .settled .undelivered .none
    else retryOr p m
  | _ => retryOr p m

/-- The judgement of a phase: which of R60, R61, R62 applies. -/
def judge (p : Params) (m : Message) (ph : Phase) (heard : List RxChar) : Verdict :=
  let entries := phaseEntries p m ph heard
  if isTextKind m.kind && m.individual then judgeIndividual p m entries
  else if !isTextKind m.kind && ph.isFree then judgeFree p m heard
  else judgeGroup p m (mergeEntries entries m.answers)

/-- The end of an answer phase at the transmitter (R59 to R63): the phase is merged and judged. A phase
that ends while its message is still SENDING waits for the keyer's report (R56) (assumption 38). -/
def State.phaseJudged (s : State) : State :=
  match s.active, s.transmitter.attempt.bind Attempt.phase with
  | some m, some ph =>
    if m.state = .answering then
      let p := s.loader.params
      let entries := phaseEntries p m ph s.transmitter.heard
      let verdict := judge p m ph s.transmitter.heard
      let s := s.onActive fun m => { m with answers := mergeEntries entries m.answers }
      match verdict with
      | .settled o content => s.finishMessage o content
      | .retry => s.contendAgain fun m => { m with retries := m.retries + 1 }
    else if m.state = .sending then
      { s with
        transmitter := { s.transmitter with
          attempt := s.transmitter.attempt.map fun a => { a with phaseOver := true } } }
    else s
  | _, _ => s

/-- The listener reports an answer phase: while the record is SENDING, between the keyer's grant and its
report of the end, the attempt takes it as its own (R56), the latest one where there are two (assumption
47). -/
def State.phaseReported (s : State) (ph : Phase) : State :=
  match s.transmitter.attempt with
  | some a =>
    if s.sendingNow = true ∧ a.granted ≤ s.now then
      { s with
        transmitter := { s.transmitter with
          attempt := some { a with phase := some ph, phaseOver := false }, heard := [] } }
    else s
  | none => s

/-- A character of an answer phase is handed to the transmitter (R20, R57): it keeps it when the
phase is its attempt's. -/
def State.phaseChar (s : State) (c : RxChar) : State :=
  match s.transmitter.attempt with
  | some a =>
    if a.phase.isSome then
      { s with transmitter := { s.transmitter with heard := s.transmitter.heard ++ [c] } }
    else s
  | none => s

/-! ### The keyer's reports (R52, R54 to R56) -/

/-- The end of a MESSAGE sequence (R55, R56). A phase that has ended before it is judged at once
(assumption 38). -/
def State.messageKeyed (s : State) : State :=
  match s.transmitter.attempt with
  | none => s
  | some a =>
    if a.stage = .finished true then s.finishMessage .cancelled .none
    else if a.phase.isSome then
      let s := s.onActive fun m => { m with state := .answering }
      if a.phaseOver then s.phaseJudged else s
    else s.collision

/-- A mismatch on MESSAGE (R52, R55): after a cancel request was taken the record is CANCELLED,
otherwise it is stopped and waits for what the space run does. -/
def State.messageMismatch (s : State) (at_ : Ticks) : State :=
  match s.transmitter.attempt with
  | none => s
  | some a =>
    if a.cancel then s.finishMessage .cancelled .none
    else
      { s with
        transmitter := { s.transmitter with
          attempt := some { a with
            stopped := some { comparePoint := at_, spaceDate := s.receiver.spaceDate } } } }

/-- The attempt is stopped on a mismatch (R52). -/
def Transmitter.isStopped (x : Transmitter) : Bool := x.attempt.any fun a => a.stopped.isSome

/-- The space run dated `date` ended before 2C (R52, R53): the mismatch it caused was a collision. -/
def State.spaceEnded (s : State) (date : Option Ticks) : State :=
  match s.transmitter.attempt.bind Attempt.stopped with
  | some x => if x.spaceDate = date then s.collision else s
  | none => s

/-- A character of the opening pair, the header or the text is being keyed (R55): nothing of the closing
pair has been supplied, or only its CONTROL, which the keyer has not begun, since it keys the character
before it until that one's stop element ends (assumption 11). -/
def State.keysCancellable (s : State) (a : Attempt) : Bool :=
  match a.stage with
  | .opening | .header _ | .text _ _ => true
  | .closingEnd => s.keyer.current.any fun c => c.next != .unasked
  | _ => false

/-- A cancel request (R55). -/
def State.cancelRequest (s : State) : State :=
  match s.active with
  | none => s
  | some m =>
    match m.state with
    | .contending => s.finishMessage .cancelled .none
    | .sending =>
      match s.transmitter.attempt with
      | none => s
      | some a =>
        if a.stopped.isSome then s.finishMessage .cancelled .none
        else if s.keysCancellable a then
          { s with transmitter := { s.transmitter with attempt := some { a with cancel := true } } }
        else s
    | _ => s

/-! ### The wait for the line (R46 to R48) -/

/-- The defer D, in units (R48): 2 × ((own − L − 1) mod 31) + 2. -/
def defer (own last : Code) : Nat := 2 * ((own.val + 61 - last.val) % 31) + 2

/-- O, the origin of the wait (R47): the later of the last space-to-mark change and the end of the
last answer phase. -/
def State.waitOrigin (s : State) : Option Ticks :=
  s.receiver.markDate.map fun d => max d (s.listener.phaseEnd.getD 0)

/-- Contention is held (R46). -/
def State.contentionHeld (s : State) : Bool :=
  s.listener.degraded || s.receiver.lineOpen || s.loader.standing != .configured ||
    s.listener.state == .slottedAnswers || s.listener.state == .freeAnswer ||
    s.matcher.state == .due || s.matcher.state == .keying

/-- The instant at which an attempt may begin (R47): O + Q + D, while the line is at mark, the active
record is CONTENDING, no hold stands and this station has a number. It may lie in the past (assumption
46). -/
def State.attemptInstant (s : State) : Option Ticks :=
  if s.receiver.level = some .mark ∧ s.contentionHeld = false ∧
      s.active.any (·.state == .contending) = true then
    match s.loader.params.own, s.waitOrigin with
    | some own, some o =>
      some (o + s.loader.params.quietTime +
        defer own s.listener.lastOriginator * s.loader.params.unit)
    | _, _ => none
  else none

/-- The keyer grants MESSAGE (R49, R36): the record is SENDING and the first character, CONTROL,
begins its start unit. -/
def State.beginAttempt (s : State) : State :=
  { s.onActive (fun m => { m with state := .sending }) with
    keyer := {
      holder := .message
      current := some { code := 25, start := s.now, unit := 0, next := .unasked }
      spaceSince := some s.now }
    transmitter := { s.transmitter with
      attempt := some {
        granted := s.now, stage := .opening, acc := 0, temp := none, cancel := false,
        stopped := none, phase := none, phaseOver := false }
      heard := [] } }

end Sys2Proof.Machine
end

