-- ==== Sys2Proof/Machine/Composer.lean ====
section
/-! DEFINITION. The keyboard and the composer (chapter 8): routing of down events, the taking of keys,
the store actions, and the actions of each key. -/

namespace Sys2Proof.Machine

open Sys2Proof

/-! ### Store actions (R142, R146, R147, R153) -/

/-- One key's worth of characters, for a send case, and the send case after it. -/
structure StoreAction where
  chars : List Code
  after : Option Case
deriving DecidableEq, Repr

/-- A data key: its case code where the send case differs or is unknown, then its code (R147). -/
def dataAction (c : Code) (k : Case) (sendCase : Option Case) : StoreAction :=
  if sendCase = some k then { chars := [c], after := some k }
  else { chars := [caseCode k, c], after := some k }

/-- A format key stores its code alone; under unshift-on-space a SPACE makes the send case ALPHA
(R147), a record's first character too (assumption 51). -/
def formatAction (unshift : Bool) (c : Code) (sendCase : Option Case) : StoreAction :=
  { chars := [c], after := if c = 26 ∧ unshift = true then some .alpha else sendCase }

/-- HERE-IS: ALPHA where the send case is not ALPHA, then the answer-back; the send case follows the
stored codes (R153). -/
def hereIsAction (unshift : Bool) (codes : List Code) (sendCase : Option Case) : StoreAction :=
  { chars := (if sendCase = some .alpha then [] else [30]) ++ codes
    after := codes.foldl (fun k c => caseAfter unshift c k) (some .alpha) }

/-- BELL in TEXT: CONTROL BELL, without a change of the send case (R154). -/
def bellAction (sendCase : Option Case) : StoreAction := { chars := [25, 4], after := sendCase }

/-- A store action is taken: its characters are stored and the send case becomes its own. -/
def State.takeAction (s : State) (a : StoreAction) : State :=
  let s := s.storeChars a.chars
  { s with composer := { s.composer with sendCase := a.after } }

/-- The open local record is closed (R146, R148, R160). -/
def State.closeOpenText (s : State) : State :=
  if s.hasOpenText then
    { s with table := onLast (fun r => { r with body := .text false }) s.table }.copierLooks
  else s

/-- Room for `n` characters is made in LOCAL (R146): for want of it an open local record that is the
oldest record, and copied as far as it goes, is closed, completed and given back. -/
def State.makeRoom (s : State) (n : Nat) : State :=
  if s.hasOpenText = true ∧ s.store.free < n ∧ s.table.length = 1 ∧
      s.newest.any (fun r => r.progress == r.length) = true then s.closeOpenText
  else s

/-- A character key in LOCAL (R146): stored in the open local record, or in a new one whose first
character finds the send case unknown; refused with a bell request where it finds no room. -/
def State.charInLocal (s : State) (act : Option Case → StoreAction) : State :=
  let s := s.makeRoom (act s.composer.sendCase).chars.length
  if s.hasOpenText then
    if (act s.composer.sendCase).chars.length ≤ s.store.free then
      s.takeAction (act s.composer.sendCase)
    else s.ring
  else if s.table.length < Config.tableCapacity ∧ (act none).chars.length ≤ s.store.free then
    (s.makeRecord (.text true)).takeAction (act none)
  else s.ring

/-- A character key in TEXT (R151): stored in the message record where there is room, and refused with
a bell request otherwise. -/
def State.charInText (s : State) (act : Option Case → StoreAction) : State :=
  if (act s.composer.sendCase).chars.length ≤ s.store.free then
    s.takeAction (act s.composer.sendCase)
  else s.ring

/-! ### The composer's states -/

/-- The composer returns to LOCAL (R145). -/
def State.toLocal (s : State) : State :=
  { s with
    composer := {
      state := .composeLocal
      sendCase := if s.composer.state = .composeLocal then s.composer.sendCase else none
      group := none
      tens := none } }

/-- A COMPOSING record is discarded (R152, R156): it leaves the table, its text is given back at the
newest end, its log record is finished CANCELLED, and the copier is told. -/
def State.discardComposing (s : State) : State :=
  match s.newest with
  | none => s
  | some r =>
    match r.body with
    | .text _ => s
    | .message m =>
      if m.state = .composing then
        let current := s.table.dropLast.all OutRecord.copied
        let s : State := { s with
          table := s.table.dropLast
          store := { s.store with chars := s.store.chars.take (s.store.chars.length - r.length) }
          log := s.log.finishDiscard m.logNumber }
        if current then { s.closeLocalRun with copier := Copier.reset } else s
      else s

/-- The message being composed, changed by `f`. -/
def State.onComposing (s : State) (f : Message → Message) : State :=
  { s with table := onLast (OutRecord.withMessage f) s.table }

/-- KIND becomes TEXT: the base kind is TEXT (R150). -/
def State.kindToText (s : State) : State :=
  { s.onComposing (fun m => { m with kind := 1 }) with
    composer := { s.composer with state := .text } }

/-- The message is closed READY and the composer returns to LOCAL (R150, R151, R173): the log is
handed its destination, kind and length, the record may become active (R45), and the copier looks
at it (R155). -/
def State.closeReady (s : State) (kind : Code) : State :=
  let s := s.onComposing fun m => { m with kind := kind, state := .ready }
  let log :=
    match s.newest with
    | some r =>
      match r.body with
      | .message m => s.log.closeReady m.logNumber m.station m.kind r.length
      | .text _ => s.log
    | none => s.log
  (({ s with log := log }.toLocal).activate).copierLooks

/-- CALL in LOCAL (R148): refused while the table is full; otherwise the open local record is closed
and a COMPOSING message record made, with its sequence number and log record. Its group set, station and
base kind hold 0, 0 and 1 until they are entered (assumption 50). -/
def State.callInLocal (s : State) : State :=
  if Config.tableCapacity ≤ s.table.length then s.ring
  else
    let s := s.closeOpenText
    let seq := s.transmitter.seq
    let made := s.log.create seq (.outgoing none none none [] .none 0 0)
    let s := s.makeRecord (.message {
      logNumber := made.2, group := 0, station := 0, kind := 1, seq := seq,
      state := .composing, retries := 0, collisions := 0, answers := [],
      content := .none })
    { s with
      log := made.1
      transmitter := { s.transmitter with seq := seq + 1 }
      composer := { state := .address, sendCase := none, group := none, tens := none } }

/-- A digit in ADDRESS (R149): the second digit of a pair makes it stand, or drops it over 31. -/
def State.addressDigit (s : State) (d : Nat) : State :=
  match s.composer.tens with
  | none => { s with composer := { s.composer with tens := some d } }
  | some t =>
    let v := 10 * t + d
    let s : State := { s with composer := { s.composer with tens := none } }
    if 31 < v then s.ring
    else
      match s.composer.group with
      | none => { s with composer := { s.composer with group := some (toCode v) } }
      | some g =>
        { s.onComposing (fun m => { m with group := g, station := toCode v }) with
          composer := { s.composer with state := .kind } }

/-! ### What each key does (section 8.3) -/

/-- A character key in each state of the composer (R146, R149 to R151). -/
def State.charKey (s : State) (act : Option Case → StoreAction) : State :=
  match s.composer.state with
  | .composeLocal => s.charInLocal act
  | .address => s.ring
  | .kind => s.kindToText.charInText act
  | .text => s.charInText act

/-- A data key (R147), a digit in ADDRESS when its code is 1 to 10 (R149). -/
def State.dataKeyTaken (s : State) (c : Code) (k : Case) : State :=
  match s.composer.state with
  | .address => if c.val ≤ 10 then s.addressDigit (c.val - 1) else s.ring
  | _ => s.charKey (dataAction c k)

/-- SPACE, RETURN or NEWLINE (R146, R147). -/
def State.formatKeyTaken (s : State) (c : Code) : State :=
  s.charKey (formatAction s.loader.params.unshift c)

/-- HERE-IS (R153). -/
def State.hereIsTaken (s : State) : State :=
  s.charKey (hereIsAction s.loader.params.unshift s.loader.params.answerBack)

/-- CALL (R148 to R150). -/
def State.callTaken (s : State) : State :=
  match s.composer.state with
  | .composeLocal => s.callInLocal
  | .address => s.ring
  | .kind => s.kindToText
  | .text => s

/-- END (R148 to R151). -/
def State.endTaken (s : State) : State :=
  match s.composer.state with
  | .composeLocal => s
  | .address => s.ring
  | .kind | .text => s.closeReady 1

/-- ENQ and STATUS, which make the base kind `kind` in KIND (R148 to R151). -/
def State.requestTaken (s : State) (kind : Code) : State :=
  match s.composer.state with
  | .composeLocal => s
  | .address => s.ring
  | .kind => s.closeReady kind
  | .text => s

/-- CANCEL (R152). -/
def State.cancelTaken (s : State) : State :=
  match s.composer.state with
  | .composeLocal => s.cancelRequest
  | _ => s.discardComposing.toLocal

/-- BELL (R154). -/
def State.bellTaken (s : State) : State :=
  match s.composer.state with
  | .composeLocal => s.ring
  | .address => s.ring
  | .kind => s.kindToText.charInText bellAction
  | .text => s.charInText bellAction

/-- LOG (R154). -/
def State.logTaken (s : State) : State := s.post .log

/-! ### The keyboard (R139 to R141, R157 to R160) -/

/-- A key can be taken by the composer (R141): the motor is RUNNING or in FAULT and the key at the
head of the queue is one the command takes. -/
def State.keyAtHead (s : State) (takes : Key → Bool) : Bool :=
  s.keysTaken && s.keyboard.queue.head?.any fun k => takes k.key

/-- The key at the head is taken and acted on (R141). -/
def State.takeKey (s : State) (act : QueuedKey → State → State) : State :=
  match s.keyboard.queue with
  | [] => s
  | k :: rest => (act k { s with keyboard := { s.keyboard with queue := rest } }).settle

/-- A key's standing becomes DOWN at its down event, which the scanner reports to motor control in
ATTENDED mode for any key except CLEAR (R139, R162, R165). -/
def State.keyGoesDown (s : State) (k : Key) : State :=
  let s : State := { s with keyboard := s.keyboard.setKey k true }
  if s.mech.motor.mode = .attended ∧ k ≠ .clear then
    s.onMech fun p now m => { m with motor := m.motor.keyEvent p now }
  else s

/-- A data key takes its case from the SHIFT standing; other keys carry none (R140). -/
def keyCase (shift : Bool) : Key → Option Case
  | .data _ => some (if shift then .numeric else .alpha)
  | _ => none

/-- A queued key's down event (R140, R141): in ATTENDED it joins the key queue, or is lost with a
bell request when 6 keys wait. -/
def State.queueKey (s : State) (k : Key) : State :=
  if s.mech.motor.mode = .attended then
    if s.keyboard.queue.length < Config.keyQueueCapacity then
      let entry : QueuedKey := { key := k, case := keyCase (s.keyboard.isDown .shift) k }
      { s with keyboard := { s.keyboard with queue := s.keyboard.queue ++ [entry] } }
    else s.ring
  else s

/-- BREAK comes down in ATTENDED mode (R38, R158): the keyer takes the request whatever it keys, and
a holder it takes the line from is told at once (R54, R84). A space it keys already goes on being
measured (R39) (assumption 39). -/
def State.breakDown (s : State) : State :=
  if s.mech.motor.mode = .attended ∧ s.keyer.holder ≠ .breakKey then
    let before := s.keyer.holder
    let s : State := { s with
      keyer := {
        holder := .breakKey
        current := none
        spaceSince := some (s.keyer.spaceSince.getD s.now) } }
    match before with
    | .message => s.interrupt
    | .answer => { s with matcher := { s.matcher with state := .idle, answer := none } }
    | _ => s
  else s

/-- BREAK is released (R158): a break the keyer still holds ends. -/
def State.breakUp (s : State) : State :=
  if s.keyer.holder = .breakKey then { s with keyer := Keyer.reset } else s

/-- TAPE FEED comes down in ATTENDED mode and is handed to the punch (R159). -/
def State.tapeFeedDown (s : State) : State :=
  if s.mech.motor.mode = .attended then
    s.onMech fun p now m => { m with punch := m.punch.feedDown p now }
  else s

/-- TAPE FEED is released and handed to the punch in both modes (R159). -/
def State.tapeFeedUp (s : State) : State :=
  s.onMech fun _ _ m => { m with punch := m.punch.feedUp }

/-- CLEAR (R157): a COMPOSING record is discarded, the composer enters LOCAL and the key queue is
emptied; the listener's count and DEGRADED standing are cleared (R23), and the printer, the punch
and the motor leave FAULT (R123, R131, R166). -/
def State.clearDown (s : State) : State :=
  let s := s.discardComposing.toLocal
  let s : State := { s with
    keyboard := { s.keyboard with queue := [] }
    listener := { s.listener with errors := 0, degraded := false } }
  s.onMech fun _ _ m =>
    let running := m.motor.state == .running
    { m with
      motor := m.motor.clearFault
      printer := m.printer.clearFault running
      punch := m.punch.clearFault running }

/-- The mode switch takes a new position (R160, R165): at UNATTENDED the composer is reset. -/
def State.modeChanged (s : State) (mode : Mode) : State :=
  let s := s.onMech fun p now m =>
    { m with motor := { m.motor with mode := mode }.restartIdle p now }
  match mode with
  | .attended => s
  | .unattended =>
    let s := s.discardComposing.closeOpenText.toLocal
    { s with keyboard := { s.keyboard with queue := [] } }

/-- A down event of any key by its class (section 8.1, R140). -/
def State.routeDown (s : State) (k : Key) : State :=
  match k with
  | .shift => s
  | .brk => s.breakDown
  | .clear => s.clearDown
  | .tapeFeed => s.tapeFeedDown
  | k => s.queueKey k

/-- An up event of any key by its class (R140): those of BREAK and TAPE FEED are passed on. -/
def State.routeUp (s : State) (k : Key) : State :=
  match k with
  | .brk => s.breakUp
  | .tapeFeed => s.tapeFeedUp
  | _ => s

/-- The whole of a down event: the standing, motor control, and the key's class. -/
def State.keyDownEvent (s : State) (k : Key) : State := ((s.keyGoesDown k).routeDown k).settle

/-- The whole of an up event. -/
def State.keyUpEvent (s : State) (k : Key) : State :=
  (({ s with keyboard := s.keyboard.setKey k false } : State).routeUp k).settle

end Sys2Proof.Machine
end

