-- ==== Sys2Proof/Machine/Matcher.lean ====
section
/-! DEFINITION. The call matcher and answerer (chapter 4): who is called, the receive run, the choice
of the response, the answer. -/

namespace Sys2Proof.Machine

open Sys2Proof

/-! ### Is this station called? (R67, R68) -/

/-- The base kind of a kind (R3). -/
def baseKind (kind : Code) : Code := if 17 ≤ kind.val then toCode (kind.val - 16) else kind

/-- The kind carries the retry flag (R3). -/
def isRetry (kind : Code) : Bool := 17 ≤ kind.val

/-- A header is valid (R2): its kind is 1 to 5 or 17 to 21, and its originator is 0 to 30. -/
def Header.valid (h : Header) : Bool :=
  ((1 ≤ h.kind.val && h.kind.val ≤ 5) || (17 ≤ h.kind.val && h.kind.val ≤ 21)) &&
    h.originator != 31

/-- The destination station matches (R67): all, or equal in every place where the care mask has a
1. -/
def stationMatches (own careMask station : Code) : Bool :=
  station == 31 || (own.val ^^^ station.val) &&& careMask.val == 0

/-- A valid header matches this station (R68). -/
def Loader.matches (l : Loader) (h : Header) : Bool :=
  l.standing == .configured &&
    match l.params.own with
    | some own =>
      stationMatches own l.params.careMask h.station &&
        (h.group == 0 || h.group.val &&& l.params.groupSet.val != 0) && h.originator != own
    | none => false

/-! ### The receive run (R72 to R75, R79) -/

/-- The destinations of a run's text (R72). -/
def Incoming.dest (i : Incoming) : Dest :=
  if i.toPrint then (if i.toPunch then .both else .print) else .punch

/-- The incoming record changed by `f`. -/
def State.onIncoming (s : State) (f : Incoming → Incoming) : State :=
  { s with matcher := { s.matcher with incoming := s.matcher.incoming.map f } }

/-- A pending gap is written before what follows, where two entries are free (R75, R79). -/
def State.writeGap (s : State) : State :=
  match s.matcher.incoming with
  | none => s
  | some i =>
    if 0 < i.pendingGap ∧ 2 ≤ s.mech.queue.free then
      (s.write (.gap i.pendingGap i.dest)).onIncoming fun i => { i with pendingGap := 0 }
    else s

/-- An ordinary write of a receive run (R75): taken where two entries are free, and otherwise lost and
counted. -/
def State.receiveWrite (s : State) (e : Entry) : State :=
  let s := s.writeGap
  if 2 ≤ s.mech.queue.free then s.write e
  else s.onIncoming fun i =>
    { i with pendingGap := addUpTo 255 i.pendingGap 1, lost := addUpTo 255 i.lost 1 }

/-- Ordinary writes one after another. -/
def State.receiveWrites (s : State) (es : List Entry) : State := es.foldl State.receiveWrite s

/-- The gap carried from the run before, print-only (R73). -/
def carriedEntries (carried : Nat) : List Entry :=
  if 0 < carried then [.gap carried .print] else []

/-- The opener and, for a punch-destined run, the leader (R73). -/
def runOpener (p : Params) (toPunch : Bool) : List Entry :=
  [printChar 28] ++ List.replicate (1 + p.blankLines) (printChar 27) ++ [printChar 30] ++
    (if toPunch then List.replicate p.leader (.char 0 false .punch) else [])

/-- The receive run opens (R72, R90): an open local run is suspended, the RUN-START written, the port
taken, motor control signalled (R162), and the run's first entries written (R73) (assumption 15). -/
def State.openReceiveRun (s : State) : State :=
  let s := s.suspendLocalRun
  let s := s.onQueue fun q => { q with holder := .receive, offering := false }
  let s := s.write .runStart
  let s := s.onMech fun p now m => { m with motor := m.motor.startEvent p now }
  let carried := s.matcher.carriedGap
  let s : State := { s with matcher := { s.matcher with carriedGap := 0 } }
  s.receiveWrites (carriedEntries carried ++
    runOpener s.loader.params (s.matcher.incoming.any Incoming.toPunch))

/-- The run that is open is closed (R79): a pending gap, the notice `noticeDigit` if one is called for
and eight entries are free, and the RUN-END in its kept entry; a gap that could not be written is
carried (R75), and the port passes on (R91). -/
def State.closeReceiveRun (s : State) (noticeDigit : Option Nat) : State :=
  match s.matcher.incoming with
  | none => s
  | some i =>
    if i.runOpen then
      let s := s.writeGap
      let s :=
        match noticeDigit with
        | some d =>
          if 8 ≤ s.mech.queue.free then
            s.writeAll ((inRunNotice i.header.originator d).map printChar)
          else s
        | none => s
      let s := (s.write .runEnd).onQueue CopyQueue.releasePort
      let left := (s.matcher.incoming.map Incoming.pendingGap).getD 0
      { s with
        matcher := { s.matcher with carriedGap := addUpTo 255 s.matcher.carriedGap left } }.onIncoming
          fun i => { i with runOpen := false, pendingGap := 0 }
    else s

/-! ### At the header (R69 to R72) -/

/-- The peer table entry of an originator, if it is valid (R70). -/
def Matcher.peer (m : Matcher) (originator : Code) : Option PeerEntry :=
  m.peers[originator.val]?.join

/-- A message is a duplicate (R70). -/
def Matcher.isDuplicate (m : Matcher) (h : Header) : Bool :=
  isTextKind (baseKind h.kind) && isRetry h.kind && (m.peer h.originator).any (·.seq == h.seq)

/-- A message is refused (R71). -/
def Mech.refuses (m : Mech) (base : Code) : Bool :=
  if base = 3 then
    m.punch.switch != .receive || m.punch.state == .fault || m.motor.state == .fault
  else m.printer.state == .fault || m.motor.state == .fault

/-- The disposition of a matched message (R69 to R72). -/
def State.disposition (s : State) (h : Header) : Disposition :=
  let base := baseKind h.kind
  if base = 4 then .enquiry
  else if base = 5 then .status
  else if s.matcher.isDuplicate h then .duplicate
  else if s.mech.refuses base then .refused
  else if 2 ≤ s.mech.queue.freeForOther then .accepted
  else .lost

/-- A matched valid header is taken (R69): CALLED, a new incoming log record, the disposition, and a
receive run for an accepted message. The run's destinations are filled in by the kind and the switch for a
message without a run as well (assumption 59). -/
def State.takeCall (s : State) (h : Header) : State :=
  let made := s.log.create h.seq (.incoming h.originator h.kind none 0)
  let d := s.disposition h
  let base := baseKind h.kind
  let accepted := d == .accepted
  let i : Incoming := {
    header := h
    logNumber := made.2
    disposition := d
    toPrint := base != 3
    toPunch := base == 3 || (base == 1 && s.mech.punch.switch == .receive)
    runOpen := accepted
    pendingGap := 0
    lost := 0
    chars := 0 }
  let s : State := { s with
    log := made.1
    matcher := { s.matcher with state := .called, incoming := some i, answer := none } }
  if accepted then s.openReceiveRun else s

/-- The listener hands a header, valid or not (R68, R69): only a matched valid one, in IDLE, is
taken (assumption 36). -/
def State.matchHeader (s : State) (h : Header) (valid : Bool) : State :=
  if valid && s.loader.matches h && s.matcher.state == .idle then s.takeCall h else s

/-- A text character of the message is handed on (R74): counted, and written where a run was opened
or lost where it could not be (R72). -/
def State.matchText (s : State) (c : RxChar) : State :=
  match s.matcher.state, s.matcher.incoming with
  | .called, some i =>
    let s := s.onIncoming fun i => { i with chars := addUpTo 65535 i.chars 1 }
    match i.disposition with
    | .accepted => s.receiveWrite (.char c.code c.damaged i.dest)
    | .lost => s.onIncoming fun i => { i with lost := addUpTo 255 i.lost 1 }
    | _ => s
  | _, _ => s

/-! ### At the end (R76 to R83) -/

/-- The printer is able (R77). -/
def Printer.able (r : Printer) : Bool :=
  r.state == .off || r.state == .idle || r.state == .active

/-- The punch is able (R77). -/
def Punch.able (u : Punch) : Bool :=
  u.switch == .receive && (u.state == .off || u.state == .idle || u.state == .cycling)

/-- Every output the run needs is able (R77). -/
def Mech.able (m : Mech) (i : Incoming) : Bool :=
  m.motor.state != .fault && (!i.toPrint || m.printer.able) && (!i.toPunch || m.punch.able)

/-- The response to a called message (R77), `good` while its check is good and none of its characters was
damaged: 1 ACK, 2 HELD, 3 CHECK, 4 OVERRUN, 5 REFUSED (assumption 37). -/
def State.response (s : State) (i : Incoming) (good : Bool) : Code :=
  if !good then 3
  else match i.disposition with
    | .refused => 5
    | .duplicate => ((s.matcher.peer i.header.originator).map PeerEntry.response).getD 1
    | .lost => 4
    | .enquiry | .status => if 0 < i.lost then 4 else 1
    | .accepted => if 0 < i.lost then 4 else if s.mech.able i then 1 else 2

/-- The six status characters (R14). -/
def State.statusCharacters (s : State) : List Code :=
  let m := s.mech
  let faulty := m.motor.state == .fault
  [ match m.motor.mode with
    | .attended => 1
    | .unattended => 2,
    if faulty then 3
    else match m.printer.state with
      | .fault => 2
      | .paperOut => 1
      | _ => 0,
    if faulty || m.punch.state == .fault then 3
    else if m.punch.switch != .receive then 2
    else match m.punch.state with
      | .tapeOut | .tapeLowFinish => 1
      | _ => 0,
    toCode (min 31 m.queue.held),
    toCode (s.listener.errors / 32),
    toCode (s.listener.errors % 32) ]

/-- The answer in preparation (R82, R83): two characters in the slot of a number below N, none above
it; in a free phase the content follows an ACK to an ENQUIRY or a STATUS. -/
def State.formAnswer (s : State) (i : Incoming) (response : Code) (ph : Phase) : Option Answer :=
  let p := s.loader.params
  match p.own with
  | none => none
  | some own =>
    if ph.isFree then
      let content : List Code :=
        if response = 1 then
          match i.disposition with
          | .enquiry => toCode p.answerBack.length :: p.answerBack
          | .status => s.statusCharacters
          | _ => []
        else []
      some {
        response := response
        chars := [response, own] ++ content
        start := ph.t0 + 4 * p.unit
        supplied := 0 }
    else if own.val < p.slots then
      some {
        response := response
        chars := [response, own]
        start := ph.t0 + own.val * p.slot + 4 * p.unit
        supplied := 0 }
    else none

/-- The peer table at the end of a message (R78). -/
def Matcher.remember (m : Matcher) (i : Incoming) (good : Bool) (response : Code) : Matcher :=
  if i.disposition = .accepted ∧ good = true then
    { m with
      peers := m.peers.setIfInBounds i.header.originator.val
        (some { seq := i.header.seq, response := response }) }
  else m

/-- The notice digit an end with check characters calls for (R79). -/
def endNotice (response : Code) : Option Nat :=
  if response = 3 then some 3 else if response = 4 then some 4 else none

/-- The outcome of an incoming record whose message ended with its check characters (R81). -/
def endOutcome (i : Incoming) (response : Code) : InOutcome :=
  if response = 3 then .checkFailed
  else match i.disposition with
    | .refused => .refused
    | .duplicate => .duplicate
    | d =>
      if response = 4 then .overrun
      else match d with
        | .enquiry | .status => .answered
        | _ => if response = 1 then .complete else .heldComplete

/-- The incoming record is finished in the log and dropped (R81, R174). -/
def State.finishIncoming (s : State) (o : InOutcome) : State :=
  match s.matcher.incoming with
  | none => s
  | some i =>
    { s with
      log := s.log.finishIn i.logNumber o i.chars i.lost
      matcher := { s.matcher with incoming := none } }

/-- The end of a called message with both check characters (R76): response, answer, peer table, run,
log, and DUE or IDLE. -/
def State.endCalled (s : State) (i : Incoming) (good : Bool) (ph : Phase) : State :=
  let r := s.response i good
  let answer := s.formAnswer i r ph
  let s : State := { s with matcher := s.matcher.remember i good r }
  let s := (s.closeReceiveRun (endNotice r)).finishIncoming (endOutcome i r)
  { s with
    matcher := { s.matcher with state := if answer.isSome then .due else .idle, answer := answer } }

/-- The listener hands the end of a message with both check characters (R76). -/
def State.matchEnd (s : State) (good : Bool) (ph : Phase) : State :=
  match s.matcher.state, s.matcher.incoming with
  | .called, some i => s.endCalled i good ph
  | _, _ => s

/-- The listener hands a cancelled or broken end (R80). -/
def State.matchBroken (s : State) (noticeDigit : Nat) (o : InOutcome) : State :=
  match s.matcher.state with
  | .called =>
    let s := (s.closeReceiveRun (some noticeDigit)).finishIncoming o
    { s with matcher := { s.matcher with state := .idle, answer := none } }
  | _ => s

/-- The listener reports the end of the phase (R84): an answer not yet begun is abandoned. -/
def State.answerPhaseOver (s : State) : State :=
  if s.matcher.state = .due then
    { s with matcher := { s.matcher with state := .idle, answer := none } }
  else s

/-! ### Answering (R84) -/

/-- The answer ends at the keyer: complete, stopped on a mismatch, or taken by break (R84). -/
def State.answerOver (s : State) : State :=
  if s.matcher.state = .keying then
    { s with matcher := { s.matcher with state := .idle, answer := none } }
  else s

/-- At the start instant the keyer is requested for ANSWER (R84, R36): granted while it has no holder,
and otherwise the answer is abandoned. -/
def State.startAnswer (s : State) (a : Answer) : State :=
  if s.keyer.holder = .none then
    { s with
      keyer := {
        holder := .answer
        current := some { code := a.chars.getD 0 0, start := s.now, unit := 0, next := .unasked }
        spaceSince := some s.now }
      matcher := { s.matcher with state := .keying, answer := some { a with supplied := 1 } } }
  else { s with matcher := { s.matcher with state := .idle, answer := none } }

/-- The answerer is asked for the next character of ANSWER (R37, R84). -/
def State.answerSupply (s : State) : State × Option Code :=
  match s.matcher.answer with
  | none => (s, none)
  | some a =>
    match a.chars[a.supplied]? with
    | none => (s, none)
    | some c =>
      ({ s with matcher := { s.matcher with answer := some { a with supplied := a.supplied + 1 } } },
        some c)

end Sys2Proof.Machine
end

