-- ==== Sys2Proof/Machine/Listener.lean ====
section
/-! DEFINITION. The listener (section 1.4): following a message character by character, its end, the
answer phase, the line error count. -/

namespace Sys2Proof.Machine

open Sys2Proof

/-! ### The line error count (R23) -/

/-- The count goes up by 1, stopping at 63; DEGRADED is set when it goes above the threshold (assumption 31). -/
def Listener.countError (threshold : Nat) (l : Listener) : Listener :=
  let n := addUpTo 63 l.errors 1
  { l with errors := n, degraded := l.degraded || decide (threshold < n) }

/-- The count goes down by 1, stopping at 0; DEGRADED is cleared at 0. -/
def Listener.countGood (l : Listener) : Listener :=
  let n := l.errors - 1
  { l with errors := n, degraded := l.degraded && n != 0 }

/-- The listener of a state changed by `f`. -/
def State.onListener (s : State) (f : Listener → Listener) : State :=
  { s with listener := f s.listener }

/-- An event of R23 is counted. -/
def State.countError (s : State) : State :=
  s.onListener (Listener.countError s.loader.params.errorThreshold)

/-! ### The message (R5, R16 to R19) -/

/-- The message state is dropped (R21). -/
def Listener.drop (l : Listener) : Listener :=
  { l with
    fields := [], valid := false, held := none, acc := 0, temp := none, damaged := false,
    pairDamaged := false, check := none }

/-- A new message begins at the opening pair of the CONTROL `h` and the CALL `c` (R5, R16), whose damage
is damage of the message (R19) (assumption 41). -/
def Listener.open (h c : RxChar) (l : Listener) : Listener :=
  { l.drop with state := .header, pairDamaged := h.damaged || c.damaged }

/-- A covered character is fed into the check (R5, R6, R9). -/
def Listener.cover (l : Listener) (c : RxChar) : Listener :=
  let f := feedCheck l.acc l.temp c.code
  { l with acc := f.1, temp := f.2, damaged := l.damaged || c.damaged }

/-- The five fields as a header (R2). -/
def headerOf : List Code → Option Header
  | [g, d, o, k, n] => some { group := g, station := d, originator := o, kind := k, seq := n }
  | _ => none

/-- The fifth header character has been taken (R17): validity, L (R22), the count (R23), the hand-on
to the call matcher, and TEXT. -/
def State.headerTaken (s : State) (h : Header) : State :=
  let s := s.onListener fun l =>
    { l with
      state := .text
      valid := h.valid
      lastOriginator := if h.valid then h.originator else l.lastOriginator }
  let s := s.matchHeader h h.valid
  if h.valid then s else s.countError

/-- A header character is taken by count (R17). -/
def State.takeField (s : State) (c : RxChar) : State :=
  let s := s.onListener fun l =>
    { l.cover c with fields := l.fields ++ [c.code], held := none }
  match headerOf s.listener.fields with
  | some h => s.headerTaken h
  | none => s

/-- A text character is fed into the check and handed to the call matcher (R18). -/
def State.textCharacter (s : State) (c : RxChar) : State :=
  (s.onListener fun l => l.cover c).matchText c

/-- A message in progress ends early (R21): a CONTROL held in the text is completed with function 0
(R4) unless a function took it, the end is handed on, and the message state is dropped. -/
def State.messageOver (s : State) (noticeDigit : Nat) (o : InOutcome) (next : ListenerState) : State :=
  let s :=
    match s.listener.state, s.listener.held with
    | .text, some h =>
      (s.matchText h).matchText { h with code := 0, damaged := false }
    | _, _ => s
  (s.matchBroken noticeDigit o).onListener fun l => { l.drop with state := next }

/-- A CONTROL `h` and a CALL `c` break the message in progress and open a new one (R17 to R19, R21). -/
def State.newCall (h c : RxChar) (s : State) : State :=
  ((s.onListener fun l => { l with held := none }).messageOver 8 .broken .header).onListener
    (Listener.open h c)

/-- A character of the text (R18), with the functions of R4. -/
def State.takeText (s : State) (c : RxChar) : State :=
  match s.listener.held with
  | none =>
    if c.code = 25 then s.onListener fun l => { l with held := some c } else s.textCharacter c
  | some h =>
    let s := s.onListener fun l => { l with held := none }
    if c.code = 1 then s.newCall h c
    else if c.code = 2 then
      s.onListener fun l =>
        { l with
          state := .check, acc := padCheck l.acc l.temp, temp := none, check := none
          pairDamaged := l.pairDamaged || h.damaged || c.damaged }
    else if c.code = 3 then s.messageOver 6 .cancelled .idle
    else (s.textCharacter h).textCharacter c

/-- A character of the header (R17): a CONTROL with a paused start is held; CALL after it opens a new
message, and any other character shows that it was a value like any other. -/
def State.takeHeader (s : State) (c : RxChar) : State :=
  match s.listener.held with
  | none =>
    if c.code = 25 ∧ c.paused = true then s.onListener fun l => { l with held := some c }
    else s.takeField c
  | some h =>
    if c.code = 1 then s.newCall h c
    else
      let s := s.takeField h
      if s.listener.state = .text then s.takeText c else s.takeField c

/-- The answer phase that follows (R10): free for a valid ENQUIRY or STATUS to one station. -/
def isFreePhase (h : Header) : Bool :=
  h.valid && h.group == 0 && h.station != 31 && (baseKind h.kind == 4 || baseKind h.kind == 5)

/-- The second check character has been taken (R19): the check result (R9) and T0 (R10) are formed, the
end is handed on, as good only where no character of the message was damaged, those of its two pairs
included (R19, R77, assumption 41), the result is counted (R23), and the phase is entered and reported
(R56). -/
def State.checkTaken (s : State) (a b : RxChar) : State :=
  let l := s.listener
  let acc := addSymbol l.acc (32 * a.code.val + b.code.val)
  let good := acc == 1023 && !l.damaged && !a.damaged && !b.damaged
  let free := (headerOf l.fields).any isFreePhase
  let ph : Phase := { t0 := b.stop, isFree := free }
  let s := s.onListener fun l => { l with acc := acc, held := none, check := none }
  let s := s.matchEnd (good && !l.pairDamaged) ph
  let s := if good then (if l.valid then s.onListener Listener.countGood else s) else s.countError
  let s := s.onListener fun l =>
    { l with
      state := if free then .freeAnswer else .slottedAnswers
      t0 := b.stop
      startSeen := false }
  s.phaseReported ph

/-- A character of the check part (R19). -/
def State.takeCheck (s : State) (c : RxChar) : State :=
  match s.listener.check, s.listener.held with
  | some a, _ => s.checkTaken a c
  | none, none =>
    if c.code = 25 ∧ c.paused = true then s.onListener fun l => { l with held := some c }
    else s.onListener fun l => { l with check := some c }
  | none, some h => if c.code = 1 then s.newCall h c else s.checkTaken h c

/-- A character in IDLE (R16): CONTROL CALL opens a message, anything else is discarded. -/
def State.takeIdle (s : State) (c : RxChar) : State :=
  match s.listener.held with
  | none =>
    if c.code = 25 then s.onListener fun l => { l with held := some c } else s
  | some h =>
    if c.code = 1 then s.onListener (Listener.open h c)
    else s.onListener fun l => { l with held := none }

/-- The character began before the last answer phase ended and completes after it (R20) (assumption 14). -/
def Listener.isLate (l : Listener) (c : RxChar) : Bool :=
  l.state == .idle && l.phaseEnd.any fun e => decide (c.start < e)

/-- A character in each state of the listener (R16 to R20). -/
def State.takeChar (s : State) (c : RxChar) : State :=
  if s.listener.isLate c then s.phaseChar c
  else match s.listener.state with
    | .quietWait => s
    | .idle => s.takeIdle c
    | .header => s.takeHeader c
    | .text => s.takeText c
    | .check => s.takeCheck c
    | .slottedAnswers | .freeAnswer => s.phaseChar c

/-- The listener takes a character the receiver reports; damage counts when it is taken, whatever the
state (R23). None is reported in QUIET-WAIT (R16, R28). -/
def State.listen (s : State) (c : RxChar) : State :=
  if s.listener.state = .quietWait then s
  else (if c.damaged then s.countError else s).takeChar c

/-! ### Ends of phases, silence, breaks (R11, R12, R16, R20, R21) -/

/-- The answer phase ends at `t` (R20): the end is reported to the transmitter (R59) and to the call
matcher (R84). -/
def State.phaseOver (s : State) (t : Ticks) (next : ListenerState) : State :=
  let s := s.onListener fun l => { l with state := next, phaseEnd := some t, held := none }
  s.phaseJudged.answerPhaseOver

/-- The listener is in a message in progress (R21). -/
def Listener.inMessage (l : Listener) : Bool :=
  l.state == .header || l.state == .text || l.state == .check

/-- The listener is in an answer phase (R20). -/
def Listener.inPhase (l : Listener) : Bool :=
  l.state == .slottedAnswers || l.state == .freeAnswer

/-- A break event, or LINE-OPEN, at the listener at `t` (R16, R20, R21): every state goes to
QUIET-WAIT. -/
def State.listenerBreak (s : State) (t : Ticks) : State :=
  if s.listener.inMessage then s.messageOver 8 .broken .quietWait
  else if s.listener.inPhase then s.phaseOver t .quietWait
  else s.onListener fun l => { l with state := .quietWait, held := none }

/-- Mark lasting Q at the listener (R12, R16, R21), at `t` in a mark run dated `date`. A free phase ends at it
where the run began after T0, also at a false start's end (assumption 57). -/
def State.listenerQuiet (s : State) (date t : Ticks) : State :=
  match s.listener.state with
  | .quietWait => s.onListener fun l => { l with state := .idle }
  | .idle => s.onListener fun l => { l with held := none }
  | .header | .text | .check => s.messageOver 8 .broken .idle
  | .freeAnswer => if s.listener.t0 < date then s.phaseOver t .idle else s
  | .slottedAnswers => s

end Sys2Proof.Machine
end

