-- ==== Sys2Proof/Machine/Receiver.lean ====
section
/-! DEFINITION. The line receiver (chapter 2): level changes, the assembler, the measures of mark and
space runs. Each operation acts on a state whose clock already stands at the event. -/

namespace Sys2Proof.Machine

open Sys2Proof

/-- The date `date` is that of a sample after the latest one taken (R26): samples are taken without
interruption, one eighth of a unit apart. -/
def Receiver.nextSample (p : Params) (r : Receiver) (date : Ticks) : Bool :=
  match r.sampled with
  | some t => t + p.sample ≤ date && (date - t) % p.sample == 0
  | none => false

/-- The filter has taken a run of `count` samples opposite to the filtered level, the first at `date`:
a confirmed run stands at its last sample, and a shorter one is over at the sample behind it, which
reads the filtered level (R26) (assumption 20). -/
def State.runTaken (s : State) (count : Nat) (date : Ticks) : State :=
  let p := s.loader.params
  { s with
    receiver := { s.receiver with
      sampled := some (date + (if p.glitch ≤ count then count - 1 else count) * p.sample) } }

/-- The assembler hunts for a start (R28): it holds no character and the listener is not in
QUIET-WAIT. A mark-to-space change then is a start. -/
def State.hunting (s : State) : Bool :=
  s.receiver.assembler == .empty && s.listener.state != .quietWait

/-- A start at `date` is paused (R31): the mark before it lasted at least the stop element plus 2
units, measured from the pause reference. -/
def State.pausedStart (s : State) (date : Ticks) : Bool :=
  s.loader.params.stopElement + 2 * s.loader.params.unit ≤ date - s.receiver.pauseRef

/-- A confirmed mark-to-space change dated `date` (R26, R28): a space run begins, and while hunting a
character starts. -/
def State.toSpace (s : State) (date : Ticks) : State :=
  { s with
    receiver := { s.receiver with
      level := some .space
      spaceDate := some date
      breakReported := false
      openReported := false
      assembler :=
        if s.hunting then .assembling date (s.pausedStart date) false []
        else s.receiver.assembler } }

/-- A confirmed space-to-mark change dated `date` (R26, R30, R31): a mark run begins, a withheld
damaged character is released to the listener, and then a space that stopped an attempt has ended
before 2C at the transmitter (R41, R53) (assumption 44). -/
def State.toMark (s : State) (date : Ticks) : State :=
  let ended := s.receiver.spaceDate
  let before := s.receiver.assembler
  let s : State := { s with
    receiver := { s.receiver with
      level := some .mark
      markDate := some date
      quietReported := false
      pauseRef := date
      assembler := match before with | .withholding .. => .empty | a => a } }
  let s :=
    match before with
    | .withholding start paused code =>
      s.listen {
        code := code, damaged := true, start := start
        stop := max (start + s.loader.params.charTime) date, paused := paused }
    | _ => s
  (s.spaceEnded ended).settle

/-- A confirmed change of the filtered level (R26). -/
def State.levelChanged (s : State) (date : Ticks) : State :=
  match s.receiver.level with
  | some .mark => s.toSpace date
  | some .space => s.toMark date
  | none => s

/-- A start at `start` counts as a start unit that began in the free phase before T0 + S (R12), one
dated before T0 too (assumption 42). -/
def State.startsInPhase (s : State) (start : Ticks) : Bool :=
  s.listener.state == .freeAnswer && start < s.listener.t0 + s.loader.params.slot

/-- The start centre (R28): space confirms the start, mark discards it as a false start (assumption 23). -/
def State.startCentre (s : State) (start : Ticks) (paused : Bool) : State :=
  if s.receiver.level = some .space then
    { s with
      receiver := { s.receiver with assembler := .assembling start paused true [] }
      listener := { s.listener with startSeen := s.listener.startSeen || s.startsInPhase start } }
  else { s with receiver := { s.receiver with assembler := .empty } }

/-- The centre of a data unit (R29): one more place of the code value. -/
def State.dataReading (s : State) (start : Ticks) (paused : Bool) (bits : List Bool) : State :=
  { s with
    receiver := { s.receiver with
      assembler := .assembling start paused true (bits ++ [s.receiver.level == some .mark]) } }

/-- The stop sample (R29, R30): a good character is reported at once and becomes the pause reference
(R31); a damaged one is withheld. -/
def State.stopReading (s : State) (start : Ticks) (paused : Bool) (bits : List Bool) : State :=
  if s.receiver.level = some .mark then
    let s : State := { s with
      receiver := { s.receiver with
        assembler := .empty, pauseRef := start + 6 * s.loader.params.unit } }
    (s.listen {
      code := readingsValue bits, damaged := false, start := start
      stop := start + s.loader.params.charTime, paused := paused }).settle
  else
    { s with
      receiver := { s.receiver with assembler := .withholding start paused (readingsValue bits) } }

/-- Mark has lasted Q (R27, R34): the standing returns to NORMAL, and the listener acts on the
report. -/
def State.quietReached (s : State) (date : Ticks) : State :=
  let s : State := { s with receiver := { s.receiver with quietReported := true, lineOpen := false } }
  (s.listenerQuiet date s.now).settle

/-- A space run has reached 2C at `t` (R32): the assembler discards what it holds, the listener breaks
off, and then a message being sent ends INTERRUPTED (R52, R54) (assumptions 35, 43). -/
def State.breakReached (s : State) (t : Ticks) : State :=
  let s : State := { s with
    receiver := { s.receiver with breakReported := true, assembler := .empty } }
  ((s.listenerBreak t).interrupt).settle

/-- A space run has reached 2 s at `t` (R34): the standing is LINE-OPEN, the listener is in
QUIET-WAIT, a message being sent then ends INTERRUPTED (R54), and the keyer stops keying it
(section 3.4, assumptions 13, 43). -/
def State.lineOpened (s : State) (t : Ticks) : State :=
  let s : State := { s with receiver := { s.receiver with openReported := true, lineOpen := true } }
  let s := (s.listenerBreak t).interrupt
  (if s.keyer.holder = .message then { s with keyer := Keyer.reset } else s).settle

end Sys2Proof.Machine
end

