-- ==== Sys2Proof/Machine/Loader.lean ====
section
/-! DEFINITION. The configuration loader (chapter 11): judging, clamping and handing over the image,
and the end of start. -/

namespace Sys2Proof.Machine

open Sys2Proof

/-- Byte `i` of an image. -/
def imageByte (image : List Nat) (i : Nat) : Nat := image.getD i 0

/-- The image passes the marker and the check (R183). -/
def imageAccepted (image : List Nat) : Bool :=
  imageByte image 0 == 166 && imageByte image 46 ≤ 3 &&
    addSymbol ((image.take 46).foldl addSymbol 0)
      (256 * imageByte image 46 + imageByte image 47) == 1023

/-- The range of a byte taken as a plain number (R182). -/
def byteRange : Nat → Nat × Nat
  | 1 => (0, 31)
  | 2 => (0, 31)
  | 3 => (0, 31)
  | 4 => (1, 31)
  | 6 => (8, 31)
  | 7 => (1, 4)
  | 8 => (0, 3)
  | 9 => (1, 62)
  | 10 => (20, 150)
  | 11 => (20, 80)
  | 12 => (0, 3)
  | 13 => (0, 3)
  | 14 => (0, 31)
  | 15 => (5, 40)
  | 16 => (2, 20)
  | 17 => (4, 40)
  | 18 => (10, 250)
  | 19 => (20, 250)
  | 20 => (2, 20)
  | 21 => (25, 250)
  | 22 => (10, 200)
  | 23 => (10, 255)
  | 24 => (2, 60)
  | 25 => (1, 20)
  | i => if 26 ≤ i ∧ i ≤ 45 then (0, 31) else (0, 255)

/-- A byte brought within its range (R184); the two parts of the line byte are clamped each on its
own. -/
def clampByte (i b : Nat) : Nat :=
  if i = 5 then 16 * min 2 (b / 16) + min 5 (b % 16)
  else max (byteRange i).1 (min (byteRange i).2 b)

/-- The loader's copy of an accepted image, every field clamped (R184). -/
def clampImage (image : List Nat) : List Nat := image.mapIdx clampByte

/-- The parameters of a clamped image (R182). -/
def imageParams (image : List Nat) : Params :=
  let b := imageByte image
  { own := some (toCode (b 1))
    careMask := toCode (b 2)
    groupSet := toCode (b 3)
    slots := b 4
    rate := b 5 % 16
    stopCode := b 5 / 16
    quiet := b 6
    glitch := b 7
    retryLimit := b 8
    errorThreshold := b 9
    breakLimit := b 10
    lineLength := b 11
    overprint := b 12 % 2 == 1
    unshift := b 12 / 2 == 1
    blankLines := b 13
    leader := b 14
    hammerPulse := b 15
    hammerRecovery := b 16
    carriageStep := b 17
    returnTimeout := b 18
    lineTime := b 19
    punchPulse := b 20
    punchTimeout := b 21
    runUp := b 22
    attendedIdle := b 23
    unattendedIdle := b 24
    answerBack := ((image.drop 26).take (b 25)).map toCode }

/-- The value of a byte from its bits, highest place first (R181). -/
def bitsValue (bits : List Bool) : Nat := bits.foldl (fun v b => 2 * v + (if b then 1 else 0)) 0

/-- One clock of the read (R181): a bit is taken from CFG DI, and the eighth of a group makes one more
byte of the image. -/
def Loader.takeBit (l : Loader) (b : Bool) : Loader :=
  let bits := l.taken ++ [b]
  if bits.length = 8 then
    { l with
      image := l.image ++ [bitsValue bits], count := l.count + 1
      clocks := l.clocks + 1, taken := [] }
  else { l with clocks := l.clocks + 1, taken := bits }

/-- The read from its first clock (R181): no byte received, then one bit at each clock. -/
def Loader.read (l : Loader) (bits : List Bool) : Loader :=
  bits.foldl Loader.takeBit { l with image := [], count := 0, clocks := 0, taken := [] }

/-- The loader judges the image it has read (R183, R184): CFG SEL is released, and the standing and
the parameters are set. -/
def Loader.judge (l : Loader) : Loader :=
  if imageAccepted l.image then
    let kept := clampImage l.image
    { l with
      standing := if imageByte kept 1 = 31 then .listenOnly else .configured
      image := kept
      select := false
      params := imageParams kept }
  else { l with standing := .unconfigured, select := false, params := Params.default }

/-- The loader at the end of the read (R181, R183, R184). -/
def Loader.readEnd (l : Loader) (bits : List Bool) : Loader := (l.read bits).judge

/-- The start state digit (R180, R186). -/
def Standing.digit : Standing → Nat
  | .listenOnly => 2
  | .unconfigured => 1
  | _ => 0

/-- The first sample sets the filtered level directly and dates the first run and the pause reference
(R26, R35). -/
def Receiver.firstSample (r : Receiver) (level : Level) (t : Ticks) : Receiver :=
  { r with
    level := some level
    sampled := some t
    markDate := if level = .mark then some t else r.markDate
    spaceDate := if level = .space then some t else r.spaceDate
    pauseRef := t }

/-- The mechanism reads its inputs at the end of the read: paper (R104), tape (R126), punch switch
(R137), SPEED OK and mode (R161), left margin (assumption 5). -/
def Mech.readInputs (m : Mech) (pins : Inputs) : Mech :=
  { m with
    printer := { m.printer with
      paper := pins.paper
      leftMargin := pins.leftMargin
      state := if pins.paper then m.printer.state else .paperOut }
    punch := { m.punch with
      tapeLow := pins.tapeLow
      tapePresent := pins.tapePresent
      switch := switchPosition pins.switchA pins.switchB
      state := if pins.tapePresent && !pins.tapeLow then m.punch.state else .tapeOut }
    motor := { m.motor with speedOk := pins.speedOk, mode := pins.mode } }

/-- The end of the configuration read (R185, R186): parameters are handed over, the blocks read their
inputs, the start notice is requested, and motor control looks at demand. -/
def State.readEnd (s : State) (bits : List Bool) (pins : Inputs) (t : Ticks) : State :=
  let s : State := { s with
    loader := s.loader.readEnd bits
    receiver := s.receiver.firstSample pins.line t
    mech := s.mech.readInputs pins }
  (s.post (.start s.loader.standing.digit)).settle

/-- Start (R181, section 0.7): every block takes its start values. The clock and the commands that
wait are the model's own and stay (assumption 26). -/
def State.started (s : State) : State := { State.reset with now := s.now, pending := s.pending }

end Sys2Proof.Machine
end

