-- ==== Sys2Proof/Machine/Keyer.lean ====
section
/-! DEFINITION. The keyer and the echo compare (sections 2.5 and 2.6). -/

namespace Sys2Proof.Machine

open Sys2Proof

/-- The keyer sets the level of a unit that begins at `t` (R25); a continuous space goes on being
measured from where it began (R39). -/
def Keyer.setUnit (k : Keyer) (c : KeyedChar) (unit : Nat) (t : Ticks) : Keyer :=
  { k with
    current := some { c with unit := unit }
    spaceSince :=
      match keyedLevel c.code unit with
      | .space => some (k.spaceSince.getD t)
      | .mark => none }

/-- The answer of the holder at a supply point (R37). -/
def supplyOf : Option Code → Supply
  | some c => .char c
  | none => .finished

/-- The holder is asked for the next character (R37). -/
def State.askHolder (s : State) : State × Option Code :=
  match s.keyer.holder with
  | .message => s.messageSupply
  | .answer => s.answerSupply
  | _ => (s, none)

/-- The supply point of the character `c` (R37): its stop element begins at mark and the holder says
what follows. -/
def State.supplyPoint (s : State) (c : KeyedChar) : State :=
  let out := s.askHolder
  { out.1 with
    keyer := { s.keyer with
      current := some { c with unit := 6, next := supplyOf out.2 }, spaceSince := none } }

/-- The end of a sequence (R37): the keyer returns to NONE and the holder is told. -/
def State.sequenceOver (s : State) : State :=
  let before := s.keyer.holder
  let s : State := { s with keyer := Keyer.reset }
  match before with
  | .message => s.messageKeyed
  | .answer => s.answerOver
  | _ => s

/-- The stop element of a character ends at `t` (R37): the next start unit begins, or the sequence is
over. -/
def State.stopElementOver (s : State) (next : Supply) (t : Ticks) : State :=
  match next with
  | .char c =>
    { s with
      keyer := { s.keyer with
        current := some { code := c, start := t, unit := 0, next := .unasked }
        spaceSince := some t } }
  | .finished => s.sequenceOver
  | .unasked => s

/-- `t` is a compare point of the unit being keyed, and it is keyed at mark (R40): the centre of a data
unit, or half a unit after the beginning or before the end of the stop element. -/
def KeyedChar.comparesAt (p : Params) (c : KeyedChar) (t : Ticks) : Bool :=
  if c.unit = 0 then false
  else if c.unit ≤ 5 then
    keyedLevel c.code c.unit == .mark && t == c.start + c.unit * p.unit + p.unit / 2
  else
    t == c.start + 6 * p.unit + p.unit / 2 || t + p.unit / 2 == c.start + p.charTime

/-- A mismatch stops the keyer, which holds mark with no holder, and is reported to the holder it had
(R40, R52, R84). -/
def State.mismatch (s : State) (t : Ticks) : State :=
  let before := s.keyer.holder
  let s : State := { s with keyer := Keyer.reset }
  match before with
  | .message => s.messageMismatch t
  | .answer => s.answerOver
  | _ => s

/-- A keyed space has reached the break limit (R39): the keyer returns to mark with no holder. A
message or answer it was keying is treated as taken by break (assumption 12). -/
def State.spaceLimit (s : State) : State :=
  let before := s.keyer.holder
  let s : State := { s with keyer := Keyer.reset }
  match before with
  | .message => s.interrupt
  | .answer => s.answerOver
  | _ => s

end Sys2Proof.Machine
end

