-- ==== Sys2Proof/Machine/StartCommands.lean ====
section
/-! DEFINITION. The meanings of START and CONFIG_READ_END. -/

namespace Sys2Proof.Machine

open Sys2Proof

/-- The outcome of a command. -/
abbrev Answered := Host.Outcome State Fault Refusal

/-- START (R181, section 0.7): every block takes its start values and the read request is sent. -/
def execStart (s : State) : Answered := .next s.started

/-- CONFIG_READ_END (R181 to R186): the bits of the read have become the image, which is judged, the
standing set, the parameters handed over, the inputs read, and the start notice requested. It can arise
only while the standing is READING, at the last of the read's clocks (assumption 19). -/
def execConfigReadEnd (bits : List Bool) (pins : Inputs) (t : Ticks) (s : State) : Answered :=
  .next (if !s.working && bits.length == Config.imageClocks then
    (s.at t).readEnd bits pins (max s.now t) else s)

end Sys2Proof.Machine
end

