-- ==== Sys2Proof/Machine/LineCommands.lean ====
section
/-! DEFINITION. The meanings of the commands of the line: level changes, samples, runs, phases, the attempt. -/

namespace Sys2Proof.Machine

open Sys2Proof

/-- FILTERED_LEVEL_CHANGE (R26): a run of at least g samples opposite to the filtered level, the first
at `date`, is confirmed at the g-th of them and dated at the first; a shorter run leaves the level and
its dates. Both arise only at a sample after the latest one taken (assumption 20). -/
def execFilteredLevelChange (count : Nat) (date : Ticks) (s : State) : Answered :=
  let p := s.loader.params
  perform s (decide (1 ≤ count) && s.receiver.nextSample p date) fun s =>
    if p.glitch ≤ count then
      ((s.runTaken count date).at (date + (p.glitch - 1) * p.sample)).levelChanged date
    else s.runTaken count date

/-- START_CENTRE_SAMPLE (R28): half a unit after an unconfirmed start. -/
def execStartCentreSample (s : State) : Answered :=
  match s.receiver.assembler with
  | .assembling start paused false _ =>
    perform s true fun s => (s.at (start + s.loader.params.unit / 2)).startCentre start paused
  | _ => perform s false id

/-- DATA_UNIT_SAMPLE (R29): the centre of the next data unit of a confirmed character. -/
def execDataUnitSample (s : State) : Answered :=
  match s.receiver.assembler with
  | .assembling start paused true bits =>
    perform s (bits.length < 5) fun s =>
      (s.at (start + (bits.length + 1) * s.loader.params.unit + s.loader.params.unit / 2)).dataReading
        start paused bits
  | _ => perform s false id

/-- STOP_SAMPLE (R29 to R31): 6.5 units after the start of a character with its five readings. -/
def execStopSample (s : State) : Answered :=
  match s.receiver.assembler with
  | .assembling start paused true bits =>
    perform s (bits.length == 5) fun s =>
      (s.at (start + 6 * s.loader.params.unit + s.loader.params.unit / 2)).stopReading
        start paused bits
  | _ => perform s false id

/-- MARK_LASTING_Q (R27): the present mark run reaches Q units, once for the run. The run stands until the
filter has confirmed the change that ends it (assumption 58). -/
def execMarkLastingQ (s : State) : Answered :=
  match s.receiver.level, s.receiver.markDate with
  | some .mark, some date =>
    perform s (!s.receiver.quietReported) fun s =>
      (s.at (date + s.loader.params.quietTime)).quietReached date
  | _, _ => perform s false id

/-- BREAK (R32): the present space run reaches 2C, once for the run, which stands until the filter has
confirmed its end (assumption 58). -/
def execBreakEvent (s : State) : Answered :=
  match s.receiver.level, s.receiver.spaceDate with
  | some .space, some date =>
    let t := date + s.loader.params.breakTime
    perform s (!s.receiver.breakReported) fun s => (s.at t).breakReached t
  | _, _ => perform s false id

/-- LINE_OPEN (R34): the present space run reaches 2 s, once for the run, which stands until the filter has
confirmed its end (assumption 58). -/
def execLineOpen (s : State) : Answered :=
  match s.receiver.level, s.receiver.spaceDate with
  | some .space, some date =>
    let t := date + Config.lineOpenTime
    perform s (!s.receiver.openReported) fun s => (s.at t).lineOpened t
  | _, _ => perform s false id

/-- ANSWER_START_INSTANT (R84): the start instant of an answer that is DUE. -/
def execAnswerStartInstant (s : State) : Answered :=
  match s.matcher.state, s.matcher.answer with
  | .due, some a => perform s true fun s => (s.at a.start).startAnswer a
  | _, _ => perform s false id

/-- SLOTTED_PHASE_END (R11, R20): the slotted answer phase ends at T0 + N × S. -/
def execSlottedPhaseEnd (s : State) : Answered :=
  let t := s.listener.t0 + s.loader.params.slots * s.loader.params.slot
  perform s (s.listener.state == .slottedAnswers) fun s => ((s.at t).phaseOver t .idle).settle

/-- A start that is not yet confirmed or discarded counts for the free phase (R12). -/
def State.startPending (s : State) : Bool :=
  match s.receiver.assembler with
  | .assembling start _ false _ => s.startsInPhase start
  | _ => false

/-- FREE_PHASE_TIMEOUT (R12, R20): a free phase in which no start unit has begun ends at T0 + S. One whose
change to space the filter has not confirmed by then (R26) does not keep it open (assumption 53). -/
def execFreePhaseTimeout (s : State) : Answered :=
  let t := s.listener.t0 + s.loader.params.slot
  perform s (s.listener.state == .freeAnswer && !s.listener.startSeen && !s.startPending) fun s =>
    ((s.at t).phaseOver t .idle).settle

/-- ATTEMPT_BEGIN (R47 to R49): the wait O + Q + D, or the last hold, has ended; a refusal of the keyer
leaves the record CONTENDING. Where the wait had ended before the record was CONTENDING, the attempt
begins at once (assumption 46). The line is at mark until the filter has confirmed a change to space
(assumption 58). -/
def execAttemptBegin (s : State) : Answered :=
  match s.attemptInstant with
  | some t => perform s (s.keyer.holder == .none) fun s => (s.at t).beginAttempt
  | none => perform s false id

end Sys2Proof.Machine
end

