-- ==== Sys2Proof/Machine/KeyerCommands.lean ====
section
/-! DEFINITION. The meanings of the commands of the keyer. -/

namespace Sys2Proof.Machine

open Sys2Proof

/-- KEYER_UNIT_BOUNDARY (R25): the keyer sets KEYER to the level of the next unit of the character, from
the end of the start unit to the beginning of the stop element. -/
def execKeyerUnitBoundary (s : State) : Answered :=
  match s.keyer.current with
  | some c =>
    let t := c.start + (c.unit + 1) * s.loader.params.unit
    perform s (c.unit ≤ 5) fun s =>
      { s.at t with keyer := s.keyer.setUnit c (c.unit + 1) t }
  | none => perform s false id

/-- KEYER_SUPPLY_POINT (R37): at the start of the stop element the holder is asked for the next
character. -/
def execKeyerSupplyPoint (s : State) : Answered :=
  match s.keyer.current with
  | some c =>
    perform s (decide (5 ≤ c.unit) && c.next == .unasked) fun s =>
      (s.at (c.start + 6 * s.loader.params.unit)).supplyPoint c
  | none => perform s false id

/-- KEYER_STOP_ELEMENT_END (R37): the stop element ends, the character is complete, and the next start
unit begins or the sequence is over. -/
def execKeyerStopElementEnd (s : State) : Answered :=
  match s.keyer.current with
  | some c =>
    let t := c.start + s.loader.params.charTime
    perform s (decide (6 ≤ c.unit) && c.next != .unasked) fun s =>
      ((s.at t).stopElementOver c.next t).settle
  | none => perform s false id

/-- ECHO_MISMATCH (R40): at a compare point at which the keyer keys mark the line reads space (assumption 34). -/
def execEchoMismatch (t : Ticks) (s : State) : Answered :=
  match s.keyer.current with
  | some c =>
    perform s (c.comparesAt s.loader.params t && s.receiver.level == some .space) fun s =>
      ((s.at t).mismatch t).settle
  | none => perform s false id

/-- BREAK_LIMIT (R39): a continuous keyed space reaches the break limit. -/
def execBreakLimit (s : State) : Answered :=
  match s.keyer.spaceSince with
  | some since =>
    perform s true fun s =>
      ((s.at (since + ms (10 * s.loader.params.breakLimit))).spaceLimit).settle
  | none => perform s false id

end Sys2Proof.Machine
end

