-- ==== Sys2Proof/Machine/KeyCommands.lean ====
section
/-! DEFINITION. The meanings of the commands of the keyboard, the composer and the mode switch. -/

namespace Sys2Proof.Machine

open Sys2Proof

/-- KEY_DOWN (R139 to R141): a key that was UP becomes DOWN; a key held down gives no further event (assumption 22). -/
def execKeyDown (k : Key) (t : Ticks) (s : State) : Answered :=
  perform s (!s.keyboard.isDown k) fun s => (s.at t).keyDownEvent k

/-- KEY_UP (R139, R140): a key that was DOWN becomes UP. -/
def execKeyUp (k : Key) (t : Ticks) (s : State) : Answered :=
  perform s (s.keyboard.isDown k) fun s => (s.at t).keyUpEvent k

/-- CLEAR (R157): the down event of the CLEAR key, in either mode. -/
def execClear (t : Ticks) (s : State) : Answered :=
  perform s (!s.keyboard.isDown .clear) fun s => (s.at t).keyDownEvent .clear

/-- BREAK_DOWN (R158): the down event of the BREAK key. -/
def execBreakDown (t : Ticks) (s : State) : Answered :=
  perform s (!s.keyboard.isDown .brk) fun s => (s.at t).keyDownEvent .brk

/-- BREAK_UP (R158): the up event of the BREAK key. -/
def execBreakUp (t : Ticks) (s : State) : Answered :=
  perform s (s.keyboard.isDown .brk) fun s => (s.at t).keyUpEvent .brk

/-- TAPE_FEED_DOWN (R135, R159): the down event of the TAPE FEED key. -/
def execTapeFeedDown (t : Ticks) (s : State) : Answered :=
  perform s (!s.keyboard.isDown .tapeFeed) fun s => (s.at t).keyDownEvent .tapeFeed

/-- TAPE_FEED_UP (R136, R159): the up event of the TAPE FEED key. -/
def execTapeFeedUp (t : Ticks) (s : State) : Answered :=
  perform s (s.keyboard.isDown .tapeFeed) fun s => (s.at t).keyUpEvent .tapeFeed

/-- MODE_EVENT (R160, R167): the mode switch takes a position other than the present one. -/
def execModeEvent (m : Mode) (t : Ticks) (s : State) : Answered :=
  perform s (m != s.mech.motor.mode) fun s => ((s.at t).modeChanged m).settle

/-- A data key (section 8.1). -/
def isDataKey : Key → Bool
  | .data _ => true
  | _ => false

/-- A data key's code and case at its take. -/
def State.takeData (k : QueuedKey) (s : State) : State :=
  match k.key with
  | .data c => s.dataKeyTaken (dataCode c) (k.case.getD .alpha)
  | _ => s

/-- A format key's code at its take. -/
def State.takeFormat (k : QueuedKey) (s : State) : State :=
  match formatCode k.key with
  | some c => s.formatKeyTaken c
  | none => s

/-- DATA_KEY (R146, R147, R149, R151): a data key is taken from the key queue. -/
def execDataKey (s : State) : Answered :=
  perform s (s.keyAtHead isDataKey) (State.takeKey · State.takeData)

/-- FORMAT_KEY (R146, R147, R151): SPACE, RETURN or NEWLINE is taken from the key queue. -/
def execFormatKey (s : State) : Answered :=
  perform s (s.keyAtHead fun k => (formatCode k).isSome) (State.takeKey · State.takeFormat)

/-- CALL_KEY (R148): CALL is taken from the key queue. -/
def execCallKey (s : State) : Answered :=
  perform s (s.keyAtHead (· == .call)) (State.takeKey · fun _ s => s.callTaken)

/-- END_KEY (R151): END is taken from the key queue. -/
def execEndKey (s : State) : Answered :=
  perform s (s.keyAtHead (· == .endKey)) (State.takeKey · fun _ s => s.endTaken)

/-- CANCEL_KEY (R152): CANCEL is taken from the key queue. -/
def execCancelKey (s : State) : Answered :=
  perform s (s.keyAtHead (· == .cancel)) (State.takeKey · fun _ s => s.cancelTaken)

/-- ENQ_KEY (R150): ENQ is taken from the key queue. -/
def execEnqKey (s : State) : Answered :=
  perform s (s.keyAtHead (· == .enq)) (State.takeKey · fun _ s => s.requestTaken 4)

/-- STATUS_KEY (R150): STATUS is taken from the key queue. -/
def execStatusKey (s : State) : Answered :=
  perform s (s.keyAtHead (· == .status)) (State.takeKey · fun _ s => s.requestTaken 5)

/-- HERE_IS_KEY (R153): HERE-IS is taken from the key queue. -/
def execHereIsKey (s : State) : Answered :=
  perform s (s.keyAtHead (· == .hereIs)) (State.takeKey · fun _ s => s.hereIsTaken)

/-- BELL_KEY (R154): BELL is taken from the key queue. -/
def execBellKey (s : State) : Answered :=
  perform s (s.keyAtHead (· == .bell)) (State.takeKey · fun _ s => s.bellTaken)

/-- LOG_KEY (R154): LOG is taken from the key queue. -/
def execLogKey (s : State) : Answered :=
  perform s (s.keyAtHead (· == .log)) (State.takeKey · fun _ s => s.logTaken)

end Sys2Proof.Machine
end

