-- ==== Sys2Proof/Machine/QueueCommands.lean ====
section
/-! DEFINITION. The meanings of the commands of the copy queue: the copier's offer and the test of a notice. -/

namespace Sys2Proof.Machine

open Sys2Proof

/-- LOCAL_COPIER_WRITE (R92, R155): the copier offers its next character, unless it waits to be told (assumptions 33, 40). -/
def execLocalCopierWrite (s : State) : Answered :=
  perform s (!s.mech.queue.copierWaits) State.copierWrites

/-- NOTICE_RUN_WRITE (R96, R97): the head notice request is tested, and written whole where it fits (assumption 32). -/
def execNoticeRunWrite (s : State) : Answered :=
  perform s true fun s => s.testNotice.settle

end Sys2Proof.Machine
end

