-- ==== Sys2Proof/Machine/PrinterCommands.lean ====
section
/-! DEFINITION. The meanings of the commands of the page printer. -/

namespace Sys2Proof.Machine

open Sys2Proof

/-- An event at the mechanism at instant `t`: `f` acts, and the mechanism settles. -/
def State.mechEvent (s : State) (t : Ticks) (f : Params → Ticks → Mech → Mech) : State :=
  ((s.at t).onMech f).settle

/-- WHEEL_POSITION_EVENT (R110 to R113): a typewheel position event, with or without the index mark. -/
def execWheelPositionEvent (index : Bool) (t : Ticks) (s : State) : Answered :=
  perform s true fun s => s.mechEvent t fun p now m => m.wheelEvent p now index

/-- HAMMER_PULSE_END (R107, R113): the hammer pulse of a strike ends. -/
def execHammerPulseEnd (s : State) : Answered :=
  match s.mech.printer.hammer with
  | some h =>
    perform s h.pulsing fun s =>
      s.mechEvent h.pulseEnd fun p _ m => { m with printer := m.printer.pulseEnd p h }
  | none => perform s false id

/-- HAMMER_RECOVERY_END (R107): the hammer recovery time ends, after its pulse. -/
def execHammerRecoveryEnd (s : State) : Answered :=
  match s.mech.printer.hammer with
  | some h =>
    perform s (!h.pulsing) fun s =>
      s.mechEvent h.recoveryEnd fun _ _ m => { m with printer := { m.printer with hammer := none } }
  | none => perform s false id

/-- CARRIAGE_STEP_END (R107): a carriage step time ends. -/
def execCarriageStepEnd (s : State) : Answered :=
  match s.mech.printer.carriage with
  | .step t =>
    perform s true fun s =>
      s.mechEvent t fun _ _ m => { m with printer := { m.printer with carriage := .free } }
  | _ => perform s false id

/-- LINE_TIME_END (R107, R119): the line time of a line feed ends. -/
def execLineTimeEnd (s : State) : Answered :=
  match s.mech.printer.platen with
  | .feed t =>
    perform s true fun s =>
      s.mechEvent t fun _ _ m => { m with printer := { m.printer with platen := .free } }
  | _ => perform s false id

/-- LEFT_MARGIN_CONTACT (R118): the left-margin contact closes. -/
def execLeftMarginContact (t : Ticks) (s : State) : Answered :=
  perform s true fun s =>
    s.mechEvent t fun _ _ m => { m with printer := m.printer.contact }

/-- RETURN_TIMEOUT (R118, R122): the timeout of the RETURN in flight expires. -/
def execReturnTimeout (s : State) : Answered :=
  match s.mech.printer.carriage with
  | .ret t _ =>
    perform s true fun s =>
      s.mechEvent t fun _ _ m => { m with printer := m.printer.returnExpired }
  | _ => perform s false id

/-- PAPER_OUT (R121): the PAPER input changes to absent. -/
def execPaperOut (t : Ticks) (s : State) : Answered :=
  perform s s.mech.printer.paper fun s =>
    s.mechEvent t fun _ _ m => { m with printer := m.printer.paperGone }

/-- PAPER_IN (R121): the PAPER input changes to present. -/
def execPaperIn (t : Ticks) (s : State) : Answered :=
  perform s (!s.mech.printer.paper) fun s =>
    s.mechEvent t fun _ _ m =>
      { m with printer := m.printer.paperBack (m.motor.state == .running) }

/-- BELL_PULSE_END (R125): BELL is released 100 ms after the latest request. -/
def execBellPulseEnd (s : State) : Answered :=
  match s.mech.printer.bell with
  | some t =>
    perform s true fun s =>
      (s.at t).onMech fun _ _ m => { m with printer := { m.printer with bell := none } }
  | none => perform s false id

end Sys2Proof.Machine
end

