-- ==== Sys2Proof/Machine/PunchCommands.lean ====
section
/-! DEFINITION. The meanings of the commands of the tape punch. -/

namespace Sys2Proof.Machine

open Sys2Proof

/-- PUNCH_SWITCH_EVENT (R137, R100): the switch reaches a position other than the present one; at OFF
the punch pointer is moved along and feeding stops. -/
def execPunchSwitchEvent (a b : Bool) (t : Ticks) (s : State) : Answered :=
  perform s (switchPosition a b != s.mech.punch.switch) fun s =>
    s.mechEvent t fun _ _ m =>
      Mech.rest { m with punch := m.punch.setSwitch (switchPosition a b) }

/-- PUNCH_PULSE_END (R129): the magnet pulse ends and the magnet outputs are released. -/
def execPunchPulseEnd (s : State) : Answered :=
  match s.mech.punch.cycle with
  | some c =>
    perform s c.magnets fun s =>
      (s.at c.pulseEnd).onMech fun _ _ m =>
        { m with punch := { m.punch with cycle := some { c with magnets := false } } }
  | none => perform s false id

/-- PUNCH_DONE (R129): the first contact event at or after the end of the pulse completes the cycle;
any other is disregarded. -/
def execPunchDone (t : Ticks) (s : State) : Answered :=
  match s.mech.punch.cycle with
  | some c =>
    perform s (c.pulseEnd ≤ max s.now t) fun s =>
      s.mechEvent t fun p now m => { m with punch := m.punch.complete p now }
  | none => perform s false id

/-- PUNCH_CYCLE_TIMEOUT (R130): the cycle timeout expires before completion. -/
def execPunchCycleTimeout (s : State) : Answered :=
  match s.mech.punch.cycle with
  | some c =>
    perform s true fun s =>
      s.mechEvent (c.issued + ms (2 * s.loader.params.punchTimeout)) fun _ _ m =>
        { m with punch := m.punch.timedOut }
  | none => perform s false id

/-- TAPE_LOW (R132, R133): TAPE LOW comes to be asserted with the tape present. -/
def execTapeLow (t : Ticks) (s : State) : Answered :=
  perform s (!(s.mech.punch.tapeLow && s.mech.punch.tapePresent)) fun s =>
    s.mechEvent t fun _ _ m => { m with punch := m.punch.lowTape }

/-- TAPE_GONE (R132, R134): TAPE PRESENT de-asserts. -/
def execTapeGone (t : Ticks) (s : State) : Answered :=
  perform s s.mech.punch.tapePresent fun s =>
    s.mechEvent t fun _ _ m => { m with punch := m.punch.goneTape }

/-- TAPE_REPLACED (R132, R134): the inputs change so that the tape is present and not low. -/
def execTapeReplaced (t : Ticks) (s : State) : Answered :=
  perform s (!s.mech.punch.tapeUsable) fun s =>
    s.mechEvent t fun _ _ m =>
      { m with punch := m.punch.newTape (m.motor.state == .running) }

/-- TAPE_SENSOR_FLAG_CHANGE (R132): TAPE LOW changes while the tape is gone; the flag follows it with no
tape event. -/
def execTapeSensorFlagChange (low : Bool) (t : Ticks) (s : State) : Answered :=
  perform s (!s.mech.punch.tapePresent && low != s.mech.punch.tapeLow) fun s =>
    (s.at t).onMech fun _ _ m => { m with punch := { m.punch with tapeLow := low } }

end Sys2Proof.Machine
end

