-- ==== Sys2Proof/Machine/MotorCommands.lean ====
section
/-! DEFINITION. The meanings of the commands of motor control. -/

namespace Sys2Proof.Machine

open Sys2Proof

/-- RUN_UP_EXPIRY (R163): the run-up timer of a STARTING motor expires. -/
def execRunUpExpiry (s : State) : Answered :=
  match s.mech.motor.runUp with
  | some t => perform s true fun s => s.mechEvent t fun p now m => m.runUpExpired p now
  | none => perform s false id

/-- SPEED_OK_CHANGE (R164): the SPEED OK input changes. -/
def execSpeedOkChange (ok : Bool) (t : Ticks) (s : State) : Answered :=
  perform s (ok != s.mech.motor.speedOk) fun s =>
    s.mechEvent t fun _ _ m => m.speedChanged ok

/-- IDLE_TIMER_EXPIRY (R165): the idle timer expires and the motor enters OFF. -/
def execIdleTimerExpiry (s : State) : Answered :=
  match s.mech.motor.idle with
  | some t => perform s true fun s => s.mechEvent t fun _ _ m => m.motorLeaves .off
  | none => perform s false id

end Sys2Proof.Machine
end

