-- ==== Sys2Proof/Machine/Dispatch.lean ====
section
/-! DEFINITION. The dispatch of a command to its meaning: one arm per constructor. -/

namespace Sys2Proof.Machine

/-- The effect of a command on everything but the queue of commands. -/
def exec (i : Instr) (s : State) : Host.Outcome State Fault Refusal :=
  match i with
  | .start => Sys2Proof.Machine.execStart s
  | .configReadEnd image pins t => Sys2Proof.Machine.execConfigReadEnd image pins t s
  | .filteredLevelChange count date => Sys2Proof.Machine.execFilteredLevelChange count date s
  | .startCentreSample => Sys2Proof.Machine.execStartCentreSample s
  | .stopSample => Sys2Proof.Machine.execStopSample s
  | .markLastingQ => Sys2Proof.Machine.execMarkLastingQ s
  | .breakEvent => Sys2Proof.Machine.execBreakEvent s
  | .lineOpen => Sys2Proof.Machine.execLineOpen s
  | .answerStartInstant => Sys2Proof.Machine.execAnswerStartInstant s
  | .slottedPhaseEnd => Sys2Proof.Machine.execSlottedPhaseEnd s
  | .freePhaseTimeout => Sys2Proof.Machine.execFreePhaseTimeout s
  | .attemptBegin => Sys2Proof.Machine.execAttemptBegin s
  | .keyerSupplyPoint => Sys2Proof.Machine.execKeyerSupplyPoint s
  | .keyerStopElementEnd => Sys2Proof.Machine.execKeyerStopElementEnd s
  | .echoMismatch t => Sys2Proof.Machine.execEchoMismatch t s
  | .breakLimit => Sys2Proof.Machine.execBreakLimit s
  | .keyDown k t => Sys2Proof.Machine.execKeyDown k t s
  | .dataKey => Sys2Proof.Machine.execDataKey s
  | .formatKey => Sys2Proof.Machine.execFormatKey s
  | .callKey => Sys2Proof.Machine.execCallKey s
  | .endKey => Sys2Proof.Machine.execEndKey s
  | .cancelKey => Sys2Proof.Machine.execCancelKey s
  | .enqKey => Sys2Proof.Machine.execEnqKey s
  | .statusKey => Sys2Proof.Machine.execStatusKey s
  | .hereIsKey => Sys2Proof.Machine.execHereIsKey s
  | .bellKey => Sys2Proof.Machine.execBellKey s
  | .logKey => Sys2Proof.Machine.execLogKey s
  | .clear t => Sys2Proof.Machine.execClear t s
  | .breakDown t => Sys2Proof.Machine.execBreakDown t s
  | .breakUp t => Sys2Proof.Machine.execBreakUp t s
  | .tapeFeedDown t => Sys2Proof.Machine.execTapeFeedDown t s
  | .tapeFeedUp t => Sys2Proof.Machine.execTapeFeedUp t s
  | .modeEvent m t => Sys2Proof.Machine.execModeEvent m t s
  | .punchSwitchEvent a b t => Sys2Proof.Machine.execPunchSwitchEvent a b t s
  | .localCopierWrite => Sys2Proof.Machine.execLocalCopierWrite s
  | .noticeRunWrite => Sys2Proof.Machine.execNoticeRunWrite s
  | .wheelPositionEvent index t => Sys2Proof.Machine.execWheelPositionEvent index t s
  | .hammerPulseEnd => Sys2Proof.Machine.execHammerPulseEnd s
  | .hammerRecoveryEnd => Sys2Proof.Machine.execHammerRecoveryEnd s
  | .carriageStepEnd => Sys2Proof.Machine.execCarriageStepEnd s
  | .lineTimeEnd => Sys2Proof.Machine.execLineTimeEnd s
  | .leftMarginContact t => Sys2Proof.Machine.execLeftMarginContact t s
  | .returnTimeout => Sys2Proof.Machine.execReturnTimeout s
  | .paperOut t => Sys2Proof.Machine.execPaperOut t s
  | .paperIn t => Sys2Proof.Machine.execPaperIn t s
  | .bellPulseEnd => Sys2Proof.Machine.execBellPulseEnd s
  | .punchPulseEnd => Sys2Proof.Machine.execPunchPulseEnd s
  | .punchDone t => Sys2Proof.Machine.execPunchDone t s
  | .punchCycleTimeout => Sys2Proof.Machine.execPunchCycleTimeout s
  | .tapeLow t => Sys2Proof.Machine.execTapeLow t s
  | .tapeGone t => Sys2Proof.Machine.execTapeGone t s
  | .tapeReplaced t => Sys2Proof.Machine.execTapeReplaced t s
  | .runUpExpiry => Sys2Proof.Machine.execRunUpExpiry s
  | .speedOkChange ok t => Sys2Proof.Machine.execSpeedOkChange ok t s
  | .idleTimerExpiry => Sys2Proof.Machine.execIdleTimerExpiry s
  | .dataUnitSample => Sys2Proof.Machine.execDataUnitSample s
  | .keyerUnitBoundary => Sys2Proof.Machine.execKeyerUnitBoundary s
  | .keyUp k t => Sys2Proof.Machine.execKeyUp k t s
  | .tapeSensorFlagChange low t => Sys2Proof.Machine.execTapeSensorFlagChange low t s

end Sys2Proof.Machine
end

