-- ==== Sys2Proof/Machine/Flags.lean ====
section
/-! DEFINITION. What the outside sees of the state: the eight lamps and the output pins. None of them
holds state of its own (section 9.6, section 0.8, assumption 18). -/

namespace Sys2Proof.Machine

open Sys2Proof

/-- The eight lamps, lit as `true` (section 9.6). -/
structure Lamps where
  line : Bool
  called : Bool
  sending : Bool
  fault : Bool
  degraded : Bool
  keyboardLock : Bool
  held : Bool
  unattended : Bool
deriving DecidableEq, Repr

/-- The output pins that drive the line, the printer, the punch, the motor and the configuration
memory, asserted as `true` (section 0.8). -/
structure Pins where
  keyer : Bool
  hammer : Bool
  carrStep : Bool
  carrReturn : Bool
  platenFeed : Bool
  bell : Bool
  /-- PUNCH 1 to 5, the place of 16 first -/
  punch : List Bool
  punchFeed : Bool
  motorOn : Bool
  cfgSel : Bool
deriving DecidableEq, Repr

/-- What each lamp shows (R168 to R170). -/
def State.lamps (s : State) : Lamps where
  line := s.listener.state != .idle
  called := s.matcher.incoming.any Incoming.runOpen
  sending := s.keyer.holder == .message || s.keyer.holder == .answer
  fault :=
    s.mech.printer.state == .fault || s.mech.punch.state == .fault ||
      s.mech.motor.state == .fault || s.loader.standing == .unconfigured
  degraded := s.listener.degraded
  keyboardLock := s.store.free == 0
  held := decide (0 < s.mech.queue.held)
  unattended := s.mech.motor.mode == .unattended

/-- The magnet outputs of a row, PUNCH 1 to 5: the places of 16, 8, 4, 2 and 1 (R129). -/
def rowHoles (row : Code) : List Bool :=
  [row.val.testBit 4, row.val.testBit 3, row.val.testBit 2, row.val.testBit 1, row.val.testBit 0]

/-- The output pins: KEYER while a space is keyed (R25, R36), the printer's drives by the holds
(R107), BELL by its pulse (R125), the magnets by the cycle's pulse (R129), MOTOR ON by the motor state
(R161), CFG SEL by the read (R181). -/
def State.pins (s : State) : Pins where
  keyer := s.keyer.spaceSince.isSome
  hammer := s.mech.printer.hammer.any Hammer.pulsing
  carrStep := match s.mech.printer.carriage with | .step _ => true | _ => false
  carrReturn := match s.mech.printer.carriage with | .ret _ _ => true | _ => false
  platenFeed := match s.mech.printer.platen with | .feed _ => true | _ => false
  bell := s.mech.printer.bell.isSome
  punch :=
    match s.mech.punch.cycle with
    | some c => if c.magnets then rowHoles c.row else [false, false, false, false, false]
    | none => [false, false, false, false, false]
  punchFeed := s.mech.punch.cycle.any PunchCycle.magnets
  motorOn := s.mech.motor.state == .starting || s.mech.motor.state == .running
  cfgSel := s.loader.select

end Sys2Proof.Machine
end

