-- ==== Sys2Proof/Safety.lean ====
section
/-! DEFINITION. What counts as a safe state: the bounds and relations that the spec says hold at all
times, block by block. Every clause is decidable, so a concrete state can be tested. -/

namespace Sys2Proof.Machine

open Sys2Proof

/-- The entries of the copy queue: with the entry kept for an open run it never holds more than 2048
(R86, R89, R101), the held count is the number of its RUN-ENDs (R102), the watermark state is STOPPED
from 1536 entries on and PERMITTED down to 1024 (R98). -/
abbrev CopyQueue.bounded (q : CopyQueue) : Prop :=
  q.entries.length + (if q.runOpen then 1 else 0) ≤ Config.copyCapacity ∧
    q.held = runEnds q.entries ∧
    (q.watermark = .permitted → q.entries.length < Config.highWater) ∧
    (q.watermark = .stopped → Config.lowWater < q.entries.length) ∧
    q.requests.length ≤ Config.requestCapacity

/-- The pointers of the copy queue: both lie within it, no entry stays that both have gone past (R101),
and each stands at an entry for its consumer or at the tail (R99), the punch pointer while its switch
is at RECEIVE or LOCAL; at OFF it never stands behind the print pointer (R100). An operation at the
printer's head is that of an entry (R106). -/
abbrev Mech.pointersRest (m : Mech) : Prop :=
  m.queue.printAt ≤ m.queue.entries.length ∧ m.queue.punchAt ≤ m.queue.entries.length ∧
    min m.queue.printAt m.queue.punchAt = 0 ∧
    m.queue.printEntry.all Entry.forPrint = true ∧
    (m.punch.switch ≠ .off → m.queue.punchEntry.all Entry.forPunch = true) ∧
    (m.punch.switch = .off → m.queue.printAt ≤ m.queue.punchAt) ∧
    (m.printer.head.isSome = true → m.queue.printEntry.isSome = true)

/-- The write port: LOCAL exactly while a local run is OPEN (R92, R93), RECEIVE exactly while the call
matcher's run is open (R90, R79). -/
abbrev State.portAgrees (s : State) : Prop :=
  (s.mech.queue.holder = .localRun ↔ s.mech.queue.localRun = .opened) ∧
    (s.mech.queue.holder = .receive ↔ s.matcher.incoming.any Incoming.runOpen = true)

/-- The call matcher: an incoming record exactly in CALLED, an answer exactly in DUE and KEYING, and
the keyer held for ANSWER exactly in KEYING (R66, R84). -/
abbrev State.matcherAgrees (s : State) : Prop :=
  (s.matcher.state = .called ↔ s.matcher.incoming.isSome = true) ∧
    (s.matcher.answer.isSome = true ↔ s.matcher.state = .due ∨ s.matcher.state = .keying) ∧
    (s.keyer.holder = .answer ↔ s.matcher.state = .keying)

/-- The counts of the call matcher stop at their bounds (R65). -/
abbrev Matcher.countsBounded (m : Matcher) : Prop :=
  m.carriedGap ≤ 255 ∧
    m.incoming.all (fun i => i.pendingGap ≤ 255 && i.lost ≤ 255 && i.chars ≤ 65535) = true

/-- The copy queue and all that writes to it; nothing stands in it before the configuration read has
ended (R86, R181). -/
abbrev State.queueSafe (s : State) : Prop :=
  s.mech.queue.bounded ∧ s.mech.pointersRest ∧ s.portAgrees ∧ s.matcherAgrees ∧
    s.matcher.countsBounded ∧ (s.working = false → s.mech.queue.entries = [])

/-- The listener: the line error count is 0 to 63, DEGRADED only above 0 (R23), the accumulator 0 to
1023 (R7). -/
abbrev State.listenerSafe (s : State) : Prop :=
  s.listener.errors ≤ 63 ∧ (s.listener.degraded = true → 0 < s.listener.errors) ∧
    s.listener.acc ≤ 1023

/-- The keyer: mark and no character while it has no holder (R36), a continuous space without a
character while BREAK holds it (R38), a character while MESSAGE or ANSWER does (R37), whose start unit
and data units are keyed at the level of the code (R25). -/
abbrev State.keyerSafe (s : State) : Prop :=
  (s.keyer.holder = .none → s.keyer.current = none ∧ s.keyer.spaceSince = none) ∧
    (s.keyer.holder = .breakKey → s.keyer.current = none ∧ s.keyer.spaceSince.isSome = true) ∧
    (s.keyer.holder = .message ∨ s.keyer.holder = .answer → s.keyer.current.isSome = true) ∧
    s.keyer.current.all (fun c =>
      s.keyer.spaceSince.isSome == (keyedLevel c.code c.unit == .space)) = true

/-- The page printer: the wheel count is 0 to 48 (R110), the mismatch count 0 to 3 (R111), an
established column lies within 1 and the line length (R116), and a stop is pending only in ACTIVE
(R105, R121). Before the read has ended the column is unknown and no stop is pending (R104). -/
abbrev State.printerSafe (s : State) : Prop :=
  s.mech.printer.wheel ≤ Config.errorMark ∧ s.mech.printer.mismatches ≤ 3 ∧
    1 ≤ s.loader.params.lineLength ∧
    s.mech.printer.column.all (fun c => 1 ≤ c && c ≤ s.loader.params.lineLength) = true ∧
    (s.mech.printer.stop ≠ .none → s.mech.printer.state = .active) ∧
    (s.working = false → s.mech.printer.column = none ∧ s.mech.printer.stop = .none)

/-- The punch: a cycle is in flight in CYCLING, and otherwise at most in TAPE-LOW-FINISH, the pending stop
stands only in CYCLING, an OFF or IDLE punch has usable tape (R126, R127, R133), and a feed mode is kept only where feeding can go on or has
to end (R135, R136). -/
abbrev State.punchSafe (s : State) : Prop :=
  (s.mech.punch.cycle.isSome = true →
      s.mech.punch.state = .cycling ∨ s.mech.punch.state = .tapeLowFinish) ∧
    (s.mech.punch.state = .cycling → s.mech.punch.cycle.isSome = true) ∧
    (s.mech.punch.stop = true → s.mech.punch.state = .cycling) ∧
    (s.mech.punch.feed = .continuous →
      s.mech.punch.state = .cycling ∧ s.mech.punch.stop = false ∧ s.mech.punch.tapePresent = true) ∧
    (s.mech.punch.feed = .waiting → s.mech.punch.state = .off) ∧
    (s.mech.punch.state = .off ∨ s.mech.punch.state = .idle → s.mech.punch.tapeUsable = true) ∧
    (s.mech.punch.state = .cycling → s.mech.punch.tapePresent = true →
      s.mech.punch.tapeLow = false) ∧
    (s.working = false → s.mech.punch.cycle = none ∧ s.mech.punch.feed = .none)

/-- The motor: the run-up timer runs exactly in STARTING, the idle timer only in RUNNING (R161, R163,
R165). -/
abbrev State.motorSafe (s : State) : Prop :=
  (s.mech.motor.runUp.isSome = true ↔ s.mech.motor.state = .starting) ∧
    (s.mech.motor.idle.isSome = true → s.mech.motor.state = .running)

/-- The keyboard, the store and the outgoing table: at most 6 keys (R141), 1024 characters (R142), 8
records (R143), and one active record (R45). -/
abbrev State.tablesSafe (s : State) : Prop :=
  s.keyboard.queue.length ≤ Config.keyQueueCapacity ∧
    s.store.chars.length ≤ Config.storeCapacity ∧
    s.table.length ≤ Config.tableCapacity ∧
    s.table.countP OutRecord.isActive ≤ 1

/-- An unfinished log record belongs to a message record short of DONE, or to the current incoming
record (R172, R173, R174). -/
def State.ownsRecord (s : State) (r : LogRecord) : Bool :=
  match r.body with
  | .outgoing .. =>
    s.table.any fun o => !o.isDone && o.message.any fun m => m.logNumber == r.number
  | .incoming .. => s.matcher.incoming.any fun i => i.logNumber == r.number

/-- The traffic log: at most 16 records, no two with one number, and every unfinished one still has the
record it is made for, of which there are at most 8 and 1 (R171, R172). -/
abbrev State.logSafe (s : State) : Prop :=
  s.log.records.length ≤ Config.logCapacity ∧ (s.log.records.map LogRecord.number).Nodup ∧
    s.log.counter < 256 ∧ s.log.records.all (fun r => r.number < 256) = true ∧
    s.log.records.all (fun r => r.finished || s.ownsRecord r) = true ∧
    s.table.length ≤ Config.tableCapacity ∧ s.matcherAgrees

/-- The peer table: every valid entry holds ACK, HELD or OVERRUN (R78). -/
abbrev State.peersSafe (s : State) : Prop :=
  s.matcher.peers.toList.all (fun e => e.all fun p =>
    p.response == 1 || p.response == 2 || p.response == 4) = true

/-- A safe state: every bound and relation at once. -/
abbrev State.safe (s : State) : Prop :=
  s.queueSafe ∧ s.listenerSafe ∧ s.keyerSafe ∧ s.printerSafe ∧
    s.punchSafe ∧ s.motorSafe ∧ s.tablesSafe ∧ s.logSafe ∧ s.peersSafe

/-! ### Words of the statements -/

/-- The command `c` completes at `s`: `exec` answers a next state, of which `P` holds. -/
def Answers (c : Instr) (s : State) (P : State → Prop) : Prop := ∃ t, exec c s = .next t ∧ P t

/-- The state after an event at the mechanism at `t` that leaves the mechanism as `m`: the clock stands
at the event, `m` has settled, and nothing else has changed. -/
def State.mechAfter (s : State) (t : Ticks) (m : Mech) : State :=
  { s with now := max s.now t, mech := m.settle s.loader.params (max s.now t) }

/-- The queue with its pointers come to rest at `print` and `punch`: the entries that both have gone past
leave from the head, and no other (R101); the held count goes down by the RUN-ENDs among them (R102); the
watermark state becomes PERMITTED where entries leave down to 1024 or fewer, a copier that waits being told,
and stays as it was otherwise (R98). -/
def CopyQueue.movedTo (q : CopyQueue) (print punch : Nat) : CopyQueue :=
  let gone := min print punch
  let permits : Prop := gone ≠ 0 ∧ q.entries.length - gone ≤ 1024
  { q with
    entries := q.entries.drop gone
    printAt := print - gone
    punchAt := punch - gone
    held := q.held - (q.entries.take gone).countP (· == .runEnd)
    watermark := if permits then .permitted else q.watermark
    copierWaits := if permits ∧ q.watermark = .stopped then false else q.copierWaits }

/-- The place of a pointer at `place` once it has passed the entries that are not for its consumer (R99). -/
def CopyQueue.placeFrom (q : CopyQueue) (isFor : Entry → Bool) (place : Nat) : Nat :=
  place + ((q.entries.drop place).takeWhile fun e => !isFor e).length

/-- The in-run flag after the punch pointer has gone past `passed`: whether the last run boundary was a
RUN-START (R128). -/
def inRunPast (was : Bool) (passed : List Entry) : Bool :=
  match (passed.filter fun e => e == .runStart || e == .runEnd).getLast? with
  | some e => e == .runStart
  | none => was

/-- A record's text as it is supplied to the keyer (R50): the function of a CONTROL pair that would end
or break the message, or that is missing, is supplied as 0. -/
def asSent : List Code → List Code
  | [] => []
  | [c] => if c = 25 then [25, 0] else [c]
  | c :: f :: rest =>
    if c = 25 then 25 :: sentFunction (some f) :: asSent rest else c :: asSent (f :: rest)

/-- The characters an attempt supplies at its next `n` supply points (R37). -/
def Attempt.supplied (head text : List Code) : Nat → Attempt → List Code
  | 0, _ => []
  | n + 1, a =>
    let out := a.supply head text
    out.2.toList ++ Attempt.supplied head text n out.1

end Sys2Proof.Machine
end

