-- ==== Sys2Proof/WellFormed.lean ====
section
/-! DEFINITION. Which commands the outside can send: the operands within the ranges of the spec. -/

namespace Sys2Proof

/-- The operand ranges of a command. A run of opposite samples has at least one sample (R26), and
the read of CONFIG_READ_END took one bit at each of its clocks (R181). Every other operand is in range
by its type. -/
def Instr.wellFormed : Instr → Bool
  | .configReadEnd bits _ _ => bits.length == Config.imageClocks
  | .filteredLevelChange count _ => 1 ≤ count
  | .start | .startCentreSample | .stopSample | .markLastingQ | .breakEvent | .lineOpen => true
  | .answerStartInstant | .slottedPhaseEnd | .freePhaseTimeout | .attemptBegin => true
  | .keyerSupplyPoint | .keyerStopElementEnd | .echoMismatch _ | .breakLimit | .keyDown _ _ => true
  | .dataKey | .formatKey | .callKey | .endKey | .cancelKey | .enqKey | .statusKey => true
  | .hereIsKey | .bellKey | .logKey | .clear _ | .breakDown _ | .breakUp _ => true
  | .tapeFeedDown _ | .tapeFeedUp _ | .modeEvent _ _ | .punchSwitchEvent _ _ _ => true
  | .localCopierWrite | .noticeRunWrite | .wheelPositionEvent _ _ | .hammerPulseEnd => true
  | .hammerRecoveryEnd | .carriageStepEnd | .lineTimeEnd | .leftMarginContact _ => true
  | .returnTimeout | .paperOut _ | .paperIn _ | .bellPulseEnd | .punchPulseEnd => true
  | .punchDone _ | .punchCycleTimeout | .tapeLow _ | .tapeGone _ | .tapeReplaced _ => true
  | .runUpExpiry | .speedOkChange _ _ | .idleTimerExpiry | .dataUnitSample => true
  | .keyerUnitBoundary | .keyUp _ _ | .tapeSensorFlagChange _ _ => true

end Sys2Proof
end

