-- ==== Sys2Proof/Certificates/Slice0/Obligations.lean ====
section
/-! DEFINITION. The statements for the provers. `Answers c s P` says that `exec` answers a next state at
`s`, of which `P` holds. -/

open Sys2Proof Sys2Proof.Machine

/-! ### The whole machine -/

/-- A step runs the command at the front of the queue on the state with the queue's rest, and idles on
an empty queue (the model's queue of commands, assumption 4). -/
def Obligations.StepRunsTheFrontCommand : Prop :=
  (∀ (c : Instr) (rest : List Instr) (s : State), s.pending = c :: rest →
    step s = exec c { s with pending := rest }) ∧
  ∀ s : State, s.pending = [] → step s = .next s

/-- No command stops the part (assumption 29), none touches the commands that wait (assumption 4), and
the clock never runs back (assumption 1). -/
def Obligations.EveryCommandAnswersANextState : Prop :=
  ∀ (c : Instr) (s : State), Answers c s fun t => t.pending = s.pending ∧ s.now ≤ t.now

/-- While the configuration read is under way, every command but START and CONFIG_READ_END leaves the
state as it is: the blocks do not work yet (R35, R36, R139, R161, R181; assumption 3). -/
def Obligations.NothingArisesDuringTheRead : Prop :=
  ∀ (c : Instr) (s : State), s.working = false → c ≠ .start →
    (∀ bits pins u, c ≠ .configReadEnd bits pins u) → exec c s = .next s

/-- L changes, after start, only when a valid header has been taken, and it is then that header's
originator (R22, R17): the command is one in which the listener takes a character. -/
def Obligations.LastOriginatorIsThatOfAValidHeader : Prop :=
  ∀ (c : Instr) (s t : State), exec c s = .next t → c ≠ .start →
    t.listener.lastOriginator ≠ s.listener.lastOriginator →
    (c = .stopSample ∨ ∃ n date, c = .filteredLevelChange n date) ∧
      ∃ h, headerOf t.listener.fields = some h ∧ h.valid = true ∧
        t.listener.lastOriginator = h.originator

/-- The sequence counter moves, after start, only when CALL is taken, by 1, and 31 is followed by 0
(R44). -/
def Obligations.SequenceCounterMovesOnlyAtCall : Prop :=
  ∀ (c : Instr) (s t : State), exec c s = .next t → c ≠ .start →
    t.transmitter.seq ≠ s.transmitter.seq →
    c = .callKey ∧ t.transmitter.seq.val = (s.transmitter.seq.val + 1) % 32

/-- A peer table entry changes, after start, only when the listener takes the second check character of an
ACCEPTED message, with a good check (R9, R19), for its originator, and takes its sequence number with ACK,
HELD or OVERRUN (R70, R78). That damage of the opening or closing pair keeps it from changing is assumption 41. -/
def Obligations.PeerEntriesComeOnlyFromAcceptedMessages : Prop :=
  ∀ (c : Instr) (s t : State), exec c s = .next t → c ≠ .start →
    t.matcher.peers ≠ s.matcher.peers →
    c = .stopSample ∧ s.listener.state = .check ∧
      (∃ a, (s.listener.check = some a ∨ s.listener.check = none ∧ s.listener.held = some a) ∧
        a.damaged = false) ∧
      s.listener.damaged = false ∧ s.listener.pairDamaged = false ∧
      s.receiver.level = some .mark ∧ t.listener.acc = 1023 ∧
      ∃ i e, s.matcher.incoming = some i ∧ i.disposition = .accepted ∧
        e.seq = i.header.seq ∧ (e.response = 1 ∨ e.response = 2 ∨ e.response = 4) ∧
        t.matcher.peers = s.matcher.peers.setIfInBounds i.header.originator.val (some e)

/-- A FAULT of the printer, the punch or the motor is left, while the part works, only at CLEAR or
START (R123, R131, R161, R166). -/
def Obligations.FaultsAreLeftOnlyByClear : Prop :=
  ∀ (c : Instr) (s t : State), exec c s = .next t → s.working = true →
    s.printerSafe → s.punchSafe → s.motorSafe →
    (s.mech.printer.state = .fault ∧ t.mech.printer.state ≠ .fault ∨
      s.mech.punch.state = .fault ∧ t.mech.punch.state ≠ .fault ∨
      s.mech.motor.state = .fault ∧ t.mech.motor.state ≠ .fault) →
    c = .start ∨ ∃ u, c = .clear u ∨ c = .keyDown .clear u

/-- What follows an input follows it only at the events of that input, while the part works: the mode
(R160, R161), the punch switch (R137), the speed flag (R161), the paper flag (R121), the tape flags
(R132), the wheel count (R110); and the standing, the image and the parameters hold until the next start
(R184, R24). -/
def Obligations.InputFlagsFollowOnlyTheirEvents : Prop :=
  ∀ (c : Instr) (s t : State), exec c s = .next t → s.working = true → c ≠ .start →
    t.loader = s.loader ∧
    (t.mech.motor.mode ≠ s.mech.motor.mode →
      ∃ m u, c = .modeEvent m u ∧ t.mech.motor.mode = m) ∧
    (t.mech.punch.switch ≠ s.mech.punch.switch →
      ∃ a b u, c = .punchSwitchEvent a b u ∧ t.mech.punch.switch = switchPosition a b) ∧
    (t.mech.motor.speedOk ≠ s.mech.motor.speedOk →
      ∃ ok u, c = .speedOkChange ok u ∧ t.mech.motor.speedOk = ok) ∧
    (t.mech.printer.paper ≠ s.mech.printer.paper →
      ∃ u, c = .paperOut u ∧ t.mech.printer.paper = false ∨
        c = .paperIn u ∧ t.mech.printer.paper = true) ∧
    (t.mech.printer.wheel ≠ s.mech.printer.wheel → ∃ index u, c = .wheelPositionEvent index u) ∧
    (t.mech.punch.tapePresent ≠ s.mech.punch.tapePresent →
      ∃ u, c = .tapeGone u ∧ t.mech.punch.tapePresent = false ∨
        (c = .tapeLow u ∨ c = .tapeReplaced u) ∧ t.mech.punch.tapePresent = true) ∧
    (t.mech.punch.tapeLow ≠ s.mech.punch.tapeLow →
      ∃ u, c = .tapeLow u ∧ t.mech.punch.tapeLow = true ∨
        c = .tapeReplaced u ∧ t.mech.punch.tapeLow = false ∨
        c = .tapeSensorFlagChange t.mech.punch.tapeLow u)

/-! ### What holds at all times -/

/-- START leaves a safe state, from whatever state, and so does reset: the start values of every block
meet every bound and relation of the model. -/
def Obligations.StartIsSafe : Prop :=
  State.reset.safe ∧ ∀ s : State, Answers .start s fun t => t.safe

/-- Every step keeps the copy queue within its 2048 entries with the entry of an open run kept free, its
held count equal to its RUN-ENDs, its watermark state, its pointers and its port as the rules say they
always are (R86, R89, R98 to R102); the punch pointer stands at an entry for the punch or at the tail, and with
the switch at OFF nowhere behind the print pointer (R99, R100). -/
def Obligations.CopyQueueStaysSafe : Prop :=
  ∀ s t : State, s.queueSafe → step s = .next t → t.queueSafe

/-- Every step keeps the log at 16 records or fewer, no two with one number, and every unfinished one
owned by a record short of its end, so that a full log always has a finished record to give up (R171,
R172). -/
def Obligations.TrafficLogStaysSafe : Prop :=
  ∀ s t : State, s.logSafe → step s = .next t → t.logSafe

/-- Every step keeps the line error count within 0 to 63, DEGRADED only above 0, and the check
accumulator within 0 to 1023 (R23, R7). -/
def Obligations.ListenerStaysSafe : Prop :=
  ∀ s t : State, s.listenerSafe → step s = .next t → t.listenerSafe

/-- Every step keeps the keyer at mark while it has no holder, and its output at the level of the unit
it keys while it has one (R25, R36 to R38); and every step keeps the run-up timer to STARTING and the idle
timer to RUNNING (R161, R163, R165). -/
def Obligations.KeyerAndMotorStaySafe : Prop :=
  (∀ s t : State, s.keyerSafe → step s = .next t → t.keyerSafe) ∧
  ∀ s t : State, s.motorSafe → step s = .next t → t.motorSafe

/-- Every step keeps the wheel count within 0 to 48, an established column within 1 and the line length,
and a pending stop to ACTIVE (R110, R116, R105). -/
def Obligations.PrinterStaysSafe : Prop :=
  ∀ s t : State, s.printerSafe → step s = .next t → t.printerSafe

/-- Every step keeps the punch's cycle, its pending stop and its feed mode to the states that can have
them (R126, R127, R135). -/
def Obligations.PunchStaysSafe : Prop :=
  ∀ s t : State, s.punchSafe → step s = .next t → t.punchSafe

/-- Every step keeps at most 6 keys, 1024 characters, 8 records, and one active record (R141 to R143,
R45). -/
def Obligations.TablesStaySafe : Prop :=
  ∀ s t : State, s.tablesSafe → step s = .next t → t.tablesSafe

/-! ### Start and configuration -/

/-- START: every block takes the start values its chapter gives, LINE is the only lamp lit, and the read
request 0x0C, 0 is sent, highest place first (R15, R35, R36, R43, R44, R65, R86, R104, R126, R141, R145,
R161, R171, R181, R170); the keyer is at mark, no attempt stands, and the copier holds no case. The clock and
the commands that wait stay (assumption 26), and the change dates hold nothing yet (assumption 45). -/
def Obligations.StartGivesTheStartValues : Prop :=
  ∀ s : State, Answers .start s fun t =>
    t.now = s.now ∧ t.pending = s.pending ∧
    (t.loader.standing = .reading ∧ t.loader.count = 0 ∧ t.loader.image = [] ∧
      t.loader.clocks = 0 ∧ t.loader.taken = [] ∧ t.loader.select = true ∧
      t.loader.sent = [false, false, false, false, true, true, false, false,
        false, false, false, false, false, false, false, false]) ∧
    (t.receiver.level = none ∧ t.receiver.sampled = none ∧ t.receiver.markDate = none ∧
      t.receiver.spaceDate = none ∧ t.receiver.assembler = .empty ∧
      t.receiver.lineOpen = false) ∧
    (t.listener.state = .quietWait ∧ t.listener.fields = [] ∧ t.listener.acc = 0 ∧
      t.listener.temp = none ∧ t.listener.held = none ∧ t.listener.check = none ∧
      t.listener.damaged = false ∧ t.listener.pairDamaged = false ∧
      t.listener.lastOriginator = 30 ∧ t.listener.errors = 0 ∧ t.listener.degraded = false) ∧
    (t.matcher.state = .idle ∧ t.matcher.incoming = none ∧ t.matcher.answer = none ∧
      (∀ o : Code, t.matcher.peer o = none) ∧ t.matcher.carriedGap = 0) ∧
    t.keyer = { holder := .none, current := none, spaceSince := none } ∧
    (t.table = [] ∧ t.transmitter = { seq := 0, attempt := none, heard := [] } ∧
      t.active = none ∧ t.copier = { case := none, inPair := false }) ∧
    (t.mech.queue.entries = [] ∧ t.mech.queue.printAt = 0 ∧ t.mech.queue.punchAt = 0 ∧
      t.mech.queue.holder = .none ∧ t.mech.queue.localRun = .none ∧ t.mech.queue.held = 0 ∧
      t.mech.queue.watermark = .permitted ∧ t.mech.queue.requests = [] ∧
      t.mech.queue.offering = false ∧ t.mech.queue.copierWaits = false) ∧
    (t.mech.printer.state = .off ∧ t.mech.printer.case = .alpha ∧ t.mech.printer.column = none ∧
      t.mech.printer.atMargin = false ∧ t.mech.printer.busy = false ∧
      t.mech.printer.head = none ∧ t.mech.printer.internals = [] ∧
      t.mech.printer.wrapOwed = false ∧ t.mech.printer.heldControl = false ∧
      t.mech.printer.stop = .none ∧ t.mech.printer.wheel = 0 ∧ t.mech.printer.synced = false ∧
      t.mech.printer.mismatches = 0 ∧ t.mech.printer.bell = none) ∧
    (t.mech.punch.state = .off ∧ t.mech.punch.cycle = none ∧ t.mech.punch.stop = false ∧
      t.mech.punch.inRun = false ∧ t.mech.punch.feed = .none) ∧
    (t.mech.motor.state = .off ∧ t.mech.motor.runUp = none ∧ t.mech.motor.idle = none) ∧
    ((∀ k : Key, t.keyboard.isDown k = false) ∧ t.keyboard.queue = [] ∧ t.store.chars = [] ∧
      t.composer.state = .composeLocal ∧ t.composer.sendCase = none ∧ t.composer.group = none ∧
      t.composer.tens = none) ∧
    (t.log.records = [] ∧ t.log.counter = 0) ∧
    t.lamps = { line := true, called := false, sending := false, fault := false,
                degraded := false, keyboardLock := false, held := false, unattended := false }

/-- CONFIG_READ_END. Each group of eight of the 384 bits is one byte, highest place first, byte 0 first, and
CFG SEL is released (R181). An image with the marker 166 whose check comes to 1023 gives CONFIGURED, or
LISTEN-ONLY from a number of 31 on, each parameter the byte or the part of a byte that the layout gives it,
within its range; any other gives UNCONFIGURED and the defaults (R182, R183, R184). The blocks read their
inputs (R35, R104, R126, R137, R161), and the start notice is requested with the digit of the standing (R186,
R95). A command with any other number of bits, or after the read, changes nothing (assumptions 2, 19). -/
def Obligations.ConfigReadEndJudgesTheImage : Prop :=
  ∀ (s : State) (bits : List Bool) (pins : Inputs) (u : Ticks),
    (s.working = true ∨ bits.length ≠ 384 → exec (.configReadEnd bits pins u) s = .next s) ∧
    (s.working = false → s.printerSafe → bits.length = 384 →
    Answers (.configReadEnd bits pins u) s fun t =>
      let bit (i : Nat) : Nat := if bits.getD i false = true then 1 else 0
      let byte (i : Nat) : Nat := 128 * bit (8 * i) + 64 * bit (8 * i + 1) +
        32 * bit (8 * i + 2) + 16 * bit (8 * i + 3) + 8 * bit (8 * i + 4) + 4 * bit (8 * i + 5) +
        2 * bit (8 * i + 6) + bit (8 * i + 7)
      let image := (List.range 48).map byte
      let within (low high i : Nat) : Nat := max low (min high (byte i))
      let passes : Prop := byte 0 = 166 ∧ byte 46 ≤ 3 ∧
        addSymbol ((image.take 46).foldl addSymbol 0) (256 * byte 46 + byte 47) = 1023
      let digit := if ¬ passes then 1 else if 31 ≤ byte 1 then 2 else 0
      t.now = max s.now u ∧ t.loader.select = false ∧ t.loader.count = 48 ∧
      t.loader.clocks = 384 ∧ t.loader.taken = [] ∧
      (passes → t.loader.image = clampImage image ∧
        t.loader.standing = (if 31 ≤ byte 1 then .listenOnly else .configured) ∧
        t.loader.params = {
          own := some (toCode (within 0 31 1))
          careMask := toCode (within 0 31 2), groupSet := toCode (within 0 31 3)
          slots := within 1 31 4
          rate := min 5 (byte 5 % 16), stopCode := min 2 (byte 5 / 16)
          quiet := within 8 31 6, glitch := within 1 4 7
          retryLimit := within 0 3 8, errorThreshold := within 1 62 9
          breakLimit := within 20 150 10, lineLength := within 20 80 11
          overprint := decide (within 0 3 12 % 2 = 1)
          unshift := decide (within 0 3 12 / 2 = 1)
          blankLines := within 0 3 13, leader := within 0 31 14
          hammerPulse := within 5 40 15, hammerRecovery := within 2 20 16
          carriageStep := within 4 40 17, returnTimeout := within 10 250 18
          lineTime := within 20 250 19, punchPulse := within 2 20 20
          punchTimeout := within 25 250 21, runUp := within 10 200 22
          attendedIdle := within 10 255 23, unattendedIdle := within 2 60 24
          answerBack := (List.range (within 1 20 25)).map fun i =>
            toCode (within 0 31 (26 + i)) }) ∧
      (¬ passes → t.loader.image = image ∧ t.loader.standing = .unconfigured ∧
        t.loader.params = Params.default) ∧
      t.receiver.level = some pins.line ∧ t.receiver.pauseRef = max s.now u ∧
      t.receiver.sampled = some (max s.now u) ∧
      (pins.line = .mark → t.receiver.markDate = some (max s.now u)) ∧
      (pins.line = .space → t.receiver.spaceDate = some (max s.now u)) ∧
      t.listener = s.listener ∧ t.matcher = s.matcher ∧ t.keyer = s.keyer ∧
      t.mech.printer.paper = pins.paper ∧
      (pins.paper = false → t.mech.printer.state = .paperOut) ∧
      t.mech.punch.tapeLow = pins.tapeLow ∧ t.mech.punch.tapePresent = pins.tapePresent ∧
      (pins.tapeLow = true ∨ pins.tapePresent = false → t.mech.punch.state = .tapeOut) ∧
      t.mech.punch.switch = switchPosition pins.switchA pins.switchB ∧
      t.mech.motor.speedOk = pins.speedOk ∧ t.mech.motor.mode = pins.mode ∧
      t.mech.queue.requests =
        if s.mech.queue.requests.length < 4 then s.mech.queue.requests ++ [.start digit]
        else s.mech.queue.requests)

/-- Clamping brings every byte of an accepted image into the range of the table of R182: a byte below
takes the lower bound, one above the upper bound, one within stays (R184); the two parts of the line
byte are clamped each on its own. The clamped image has every byte clamped in its place, and no more. -/
def Obligations.ClampingFollowsTheTable : Prop :=
  (∀ b : Nat, ∀ row ∈ [(1, 0, 31), (2, 0, 31), (3, 0, 31), (4, 1, 31), (6, 8, 31), (7, 1, 4),
      (8, 0, 3), (9, 1, 62), (10, 20, 150), (11, 20, 80), (12, 0, 3), (13, 0, 3), (14, 0, 31),
      (15, 5, 40), (16, 2, 20), (17, 4, 40), (18, 10, 250), (19, 20, 250), (20, 2, 20),
      (21, 25, 250), (22, 10, 200), (23, 10, 255), (24, 2, 60), (25, 1, 20)],
    (b < row.2.1 → clampByte row.1 b = row.2.1) ∧
    (row.2.2 < b → clampByte row.1 b = row.2.2) ∧
    (row.2.1 ≤ b → b ≤ row.2.2 → clampByte row.1 b = b)) ∧
  (∀ b i : Nat, 26 ≤ i → i ≤ 45 → clampByte i b = min 31 b) ∧
  (∀ b : Nat, clampByte 5 b % 16 = min 5 (b % 16) ∧ clampByte 5 b / 16 = min 2 (b / 16)) ∧
  (∀ b : Nat, b < 256 → ∀ i ∈ [0, 46, 47], clampByte i b = b) ∧
  ∀ image : List Nat, (clampImage image).length = image.length ∧
    ∀ i b : Nat, image[i]? = some b → (clampImage image)[i]? = some (clampByte i b)

/-! ### The message and its check -/

/-- The addition of the check: the sum, less 1024 plus 1 where it is over 1023; the accumulator stays
within 0 to 1023 and is 0 at the start of a message; 1023 behaves as zero; once nonzero it stays
nonzero; and after any sequence of symbols it depends only on their sum. -/
def Obligations.CheckAdditionCarriesRound : Prop :=
  (∀ acc symbol : Nat, acc ≤ 1023 → symbol ≤ 1023 →
    (acc + symbol ≤ 1023 → addSymbol acc symbol = acc + symbol) ∧
    (1023 < acc + symbol → addSymbol acc symbol = acc + symbol - 1024 + 1 ∧
      1 ≤ addSymbol acc symbol) ∧
    addSymbol acc symbol ≤ 1023 ∧
    (acc ≠ 0 → addSymbol acc symbol ≠ 0)) ∧
  (∀ acc : Nat, acc ≤ 1023 → addSymbol acc 0 = acc ∧
    addSymbol acc 1023 = if acc = 0 then 1023 else acc) ∧
  (∀ (h c : RxChar) (l : Listener), (l.open h c).acc = 0) ∧
  ∀ xs ys : List Nat, (∀ x ∈ xs, x ≤ 1023) → (∀ y ∈ ys, y ≤ 1023) → xs.sum = ys.sum →
    xs.foldl addSymbol 0 = ys.foldl addSymbol 0

/-- The check value sent with a message makes the receiver's accumulator 1023, and a message with exactly
one covered character changed never does (R8, R9, R6). -/
def Obligations.CheckFindsEveryChangedCharacter : Prop :=
  ∀ (before after : List Code) (c d : Code),
    let sent := checkOf (before ++ c :: after) (0, none)
    let heard := checkOf (before ++ d :: after) (0, none)
    let check := 32 * ((1023 - sent) / 32) + (1023 - sent) % 32
    addSymbol sent check = 1023 ∧ (c ≠ d → addSymbol heard check ≠ 1023)

/-- An attempt supplies, after the CONTROL keyed at its grant, CALL, the five header characters, the text
as R50 has it sent, CONTROL END, and the two check characters of what it supplied, and then nothing
more (R1, R8, R50, R51). The text is sent as it stands, but for the function of a CONTROL pair: CALL (1), END
(2), CANCEL (3) and a missing function are sent as 0, any other as itself. -/
def Obligations.AttemptSuppliesTheMessageInOrder : Prop :=
  (sentFunction none = 0 ∧ sentFunction (some 1) = 0 ∧ sentFunction (some 2) = 0 ∧
    sentFunction (some 3) = 0 ∧
    ∀ c : Code, c ≠ 1 → c ≠ 2 → c ≠ 3 → sentFunction (some c) = c) ∧
  (asSent [] = [] ∧ asSent [25] = [25, 0] ∧
    (∀ (c : Code) (rest : List Code), c ≠ 25 → asSent (c :: rest) = c :: asSent rest) ∧
    ∀ (f : Code) (rest : List Code),
      asSent (25 :: f :: rest) =
        25 :: (if f = 1 ∨ f = 2 ∨ f = 3 then 0 else f) :: asSent rest) ∧
  ∀ (a : Attempt) (head text : List Code) (more : Nat),
    a.stage = .opening → a.cancel = false → head.length = 5 →
    let covered := head ++ asSent text
    let value := 1023 - checkOf covered (0, none)
    Attempt.supplied head text (covered.length + 5 + more) a =
      1 :: covered ++ [25, 2, toCode (value / 32), toCode (value % 32)]

/-! ### Contention -/

/-- The wait for the line and the keyer's grants. D is 2 × ((own − L − 1) mod 31) + 2 units and differs for
any two stations (R48). ATTEMPT_BEGIN at O + Q + D, with no hold of R46 and a free keyer: the record is
SENDING, the keyer begins CONTROL for MESSAGE, and the instant of the grant is kept (R47, R49, R36); under a
hold, or with the keyer held, the record stays CONTENDING and nothing changes. A wait that has run out already
ends at once (assumption 46), and the line is at mark until a change is confirmed (assumption 58). ANSWER_START_INSTANT in DUE: the keyer, if it has no holder, keys the first
character of the answer for ANSWER and the call matcher is KEYING; otherwise the answer is abandoned (R84,
R36). -/
def Obligations.AttemptsAndAnswersBegin : Prop :=
  (∀ own last : Code, own.val ≤ 30 → last.val ≤ 30 →
    ((defer own last : Nat) : Int) = 2 * (((own.val : Int) - last.val - 1) % 31) + 2) ∧
  (∀ a b last : Code, a.val ≤ 30 → b.val ≤ 30 → last.val ≤ 30 → a ≠ b →
    defer a last + 2 ≤ defer b last ∨ defer b last + 2 ≤ defer a last) ∧
  (∀ (s : State) (m : Message) (own : Code) (change : Ticks), s.working = true →
    s.active = some m → m.state = .contending → s.receiver.level = some .mark →
    s.receiver.markDate = some change → s.loader.params.own = some own →
    let p := s.loader.params
    let hold : Prop := s.listener.degraded = true ∨ s.receiver.lineOpen = true ∨
      s.loader.standing ≠ .configured ∨ s.listener.state = .slottedAnswers ∨
      s.listener.state = .freeAnswer ∨ s.matcher.state = .due ∨ s.matcher.state = .keying
    let origin := max change (s.listener.phaseEnd.getD 0)
    let begins := max s.now
      (origin + p.quietTime + defer own s.listener.lastOriginator * p.unit)
    (¬ hold → s.keyer.holder = .none → Answers .attemptBegin s fun t => t =
      { s with
        now := begins
        table := onFirst OutRecord.isActive
          (OutRecord.withMessage fun m => { m with state := .sending }) s.table
        keyer := {
          holder := .message
          current := some { code := 25, start := begins, unit := 0, next := .unasked }
          spaceSince := some begins }
        transmitter := {
          seq := s.transmitter.seq
          attempt := some {
            granted := begins, stage := .opening, acc := 0, temp := none, cancel := false,
            stopped := none, phase := none, phaseOver := false }
          heard := [] } }) ∧
    (hold ∨ s.keyer.holder ≠ .none → exec .attemptBegin s = .next s)) ∧
  ∀ (s : State) (a : Answer), s.working = true → s.matcher.state = .due →
    s.matcher.answer = some a →
    let now := max s.now a.start
    (s.keyer.holder = .none → Answers .answerStartInstant s fun t => t =
      { s with
        now := now
        keyer := {
          holder := .answer
          current := some { code := a.chars.getD 0 0, start := now, unit := 0, next := .unasked }
          spaceSince := some now }
        matcher := { s.matcher with
          state := .keying, answer := some { a with supplied := 1 } } }) ∧
    (s.keyer.holder ≠ .none → Answers .answerStartInstant s fun t => t =
      { s with now := now, matcher := { s.matcher with state := .idle, answer := none } })

/-- The units of a character: the start unit at space, data units 1 to 5 at mark exactly for the places
16, 8, 4, 2, 1 present in the code, the stop element at mark (R25); KEYER_UNIT_BOUNDARY goes to the next unit
at its instant and keys that level, changing nothing else. KEYER_SUPPLY_POINT: at the beginning of the stop
element, keyed at mark, the holder is asked: MESSAGE gives the next character of the attempt (R37, R50),
ANSWER the next of its characters (R84). -/
def Obligations.KeyerKeysTheUnitsAndAsks : Prop :=
  (∀ c : Code, keyedLevel c 0 = .space ∧ keyedLevel c 6 = .mark ∧
    ∀ u : Fin 5, keyedLevel c (u.val + 1) =
      if c.val / 2 ^ (4 - u.val) % 2 = 1 then .mark else .space) ∧
  (∀ (s : State) (c : KeyedChar), s.working = true → s.keyer.current = some c → c.unit ≤ 5 →
    let at_ := c.start + (c.unit + 1) * s.loader.params.unit
    Answers .keyerUnitBoundary s fun t => t =
      { s with
        now := max s.now at_
        keyer := {
          holder := s.keyer.holder
          current := some { c with unit := c.unit + 1 }
          spaceSince :=
            if keyedLevel c.code (c.unit + 1) = .mark then none
            else some (s.keyer.spaceSince.getD at_) } }) ∧
  ∀ (s : State) (c : KeyedChar), s.working = true → s.keyer.current = some c → 5 ≤ c.unit →
    c.next = .unasked →
    let begins := max s.now (c.start + 6 * s.loader.params.unit)
    let keyed (given : Option Code) : Keyer := {
      holder := s.keyer.holder
      current := some { c with
        unit := 6
        next := match given with | some x => .char x | none => .finished }
      spaceSince := none }
    (∀ (a : Attempt) (r : OutRecord) (m : Message), s.keyer.holder = .message →
      s.transmitter.attempt = some a → s.table.find? OutRecord.isActive = some r →
      r.body = .message m →
      let text := if m.kind = 4 ∨ m.kind = 5 then [] else s.store.textOf r
      let kind := if m.retries = 0 then m.kind else toCode (m.kind.val + 16)
      let out := a.supply [m.group, m.station, s.loader.params.own.getD 0, kind, m.seq] text
      Answers .keyerSupplyPoint s fun t => t =
        { s with
          now := begins
          keyer := keyed out.2
          transmitter := { s.transmitter with attempt := some out.1 } }) ∧
    ∀ a : Answer, s.keyer.holder = .answer → s.matcher.answer = some a →
      Answers .keyerSupplyPoint s fun t => t =
        { s with
          now := begins
          keyer := keyed a.chars[a.supplied]?
          matcher := { s.matcher with
            answer := some { a with
              supplied := if a.supplied < a.chars.length then a.supplied + 1
                          else a.supplied } } }

/-- KEYER_STOP_ELEMENT_END: the character supplied begins its start unit back to back; without one the
sequence is over and the keyer has no holder (R37), and before the holder has been asked nothing arises
(assumption 2). A MESSAGE that ended with its check characters awaits the answer phase its listener reported,
one that was not heard collides, one that ended with CONTROL CANCEL is CANCELLED (R55, R56); a phase that was
over before the report is judged at once (assumption 38). An ANSWER is complete (R84). -/
def Obligations.StopElementEndGoesOn : Prop :=
  ∀ (s : State) (c : KeyedChar), s.working = true → s.keyer.current = some c → 6 ≤ c.unit →
    let ends := c.start + s.loader.params.charTime
    let after (k : Keyer) : State := { s with now := max s.now ends, keyer := k }
    let silent : Keyer := { holder := .none, current := none, spaceSince := none }
    let answering : State := { after silent with
      table := onFirst OutRecord.isActive
        (OutRecord.withMessage fun m => { m with state := .answering }) s.table }
    (c.next = .unasked → exec .keyerStopElementEnd s = .next s) ∧
    (∀ x : Code, c.next = .char x → Answers .keyerStopElementEnd s fun t => t =
      (after {
        holder := s.keyer.holder
        current := some { code := x, start := ends, unit := 0, next := .unasked }
        spaceSince := some ends }).settle) ∧
    (∀ a : Attempt, c.next = .finished → s.keyer.holder = .message →
      s.transmitter.attempt = some a →
      (a.stage = .finished true → Answers .keyerStopElementEnd s fun t => t =
        ((after silent).finishMessage .cancelled .none).settle) ∧
      (a.stage ≠ .finished true → a.phase = none → Answers .keyerStopElementEnd s fun t => t =
        (after silent).collision.settle) ∧
      (∀ ph : Phase, a.stage ≠ .finished true → a.phase = some ph → a.phaseOver = false →
        Answers .keyerStopElementEnd s fun t => t = answering.settle) ∧
      (∀ (ph : Phase) (m : Message), a.stage ≠ .finished true → a.phase = some ph →
        a.phaseOver = true → answering.active = some m →
        let entries := phaseEntries s.loader.params m ph s.transmitter.heard
        let merged : State := { answering with
          table := onFirst OutRecord.isActive (OutRecord.withMessage fun m =>
            { m with answers := mergeEntries entries m.answers }) answering.table }
        Answers .keyerStopElementEnd s fun t => t =
          (match judge s.loader.params m ph s.transmitter.heard with
           | .settled o content => merged.finishMessage o content
           | .retry =>
             { merged with
               table := onFirst OutRecord.isActive (OutRecord.withMessage fun m =>
                 { m with retries := m.retries + 1, state := .contending }) merged.table
               transmitter := { s.transmitter with attempt := none, heard := [] } }).settle)) ∧
    (c.next = .finished → s.keyer.holder = .answer → s.matcher.state = .keying →
      Answers .keyerStopElementEnd s fun t => t =
        ({ after silent with
           matcher := { s.matcher with state := .idle, answer := none } } : State).settle)

/-- ECHO_MISMATCH at a compare point: the centre of a data unit keyed at mark, or half a unit from either
end of the stop element, at which the line reads space. The keyer holds mark with no holder (R40); a MESSAGE
is stopped and keeps the compare point and the date of the space, or is CANCELLED after a cancel request
(R52, R55); an ANSWER is abandoned (R84). Where the line reads mark nothing happens (R42). An instant that is
no compare point changes nothing either: the command cannot arise there, the instant being the sender's
(assumptions 2, 34). -/
def Obligations.MismatchStopsTheKeyer : Prop :=
  ∀ (s : State) (c : KeyedChar) (u : Ticks), s.working = true → s.keyer.current = some c →
    let p := s.loader.params
    let compared : Prop :=
      (1 ≤ c.unit ∧ c.unit ≤ 5 ∧ keyedLevel c.code c.unit = .mark ∧
        u = c.start + c.unit * p.unit + p.unit / 2) ∨
      (6 ≤ c.unit ∧ (u = c.start + 6 * p.unit + p.unit / 2 ∨
        u + p.unit / 2 = c.start + p.charTime))
    let silent : State := { s with
      now := max s.now u
      keyer := { holder := .none, current := none, spaceSince := none } }
    (s.receiver.level ≠ some .space ∨ ¬ compared → exec (.echoMismatch u) s = .next s) ∧
    (compared → s.receiver.level = some .space →
      (∀ a : Attempt, s.keyer.holder = .message → s.transmitter.attempt = some a →
        Answers (.echoMismatch u) s fun t => t =
          (if a.cancel = true then silent.finishMessage .cancelled .none
           else { silent with
             transmitter := { s.transmitter with
               attempt := some { a with
                 stopped := some {
                   comparePoint := u, spaceDate := s.receiver.spaceDate } } } }).settle) ∧
      (s.keyer.holder = .answer → s.matcher.state = .keying →
        Answers (.echoMismatch u) s fun t => t =
          ({ silent with
             matcher := { s.matcher with state := .idle, answer := none } } : State).settle))

/-- A collision adds 1 to the record's collisions and the record contends again, and the eighth is not
counted and ends it LINE-FAILED (R53). A final outcome stands in the table, where the content of an answer is kept
with the record (R62), and in the log with the answers, the counts and the content, requests the delivery notice, and releases the active place to the oldest READY
record (R64, R45). -/
def Obligations.CollisionsAndOutcomesSettleTheRecord : Prop :=
  ∀ (s : State) (m : Message), s.active = some m →
    let into (f : Message → Message) : List OutRecord :=
      onFirst OutRecord.isActive (OutRecord.withMessage f) s.table
    (m.collisions < 7 → s.collision =
      { s with
        table := into fun m => { m with collisions := m.collisions + 1, state := .contending }
        transmitter := { s.transmitter with attempt := none, heard := [] } }) ∧
    (7 ≤ m.collisions → s.collision = s.finishMessage .lineFailed .none) ∧
    ∀ (o : OutOutcome) (content : Content),
      let done := into fun m => { m with state := .done o, content := content }
      let next :=
        if done.any OutRecord.isActive then done
        else onFirst (OutRecord.inState .ready)
          (OutRecord.withMessage fun m => { m with state := .contending }) done
      let gone := next.takeWhile OutRecord.finished
      let room := (gone.map OutRecord.length).sum
      s.finishMessage o content =
        { s with
          log := s.log.finishOut m.logNumber o m.answers content m.collisions m.retries
          transmitter := { s.transmitter with attempt := none, heard := [] }
          mech := { s.mech with
            queue := { s.mech.queue with
              requests :=
                if s.mech.queue.requests.length < 4 then
                  s.mech.queue.requests ++ [.delivery m.logNumber]
                else s.mech.queue.requests } }
          table := next.drop gone.length
          store := {
            base := (s.store.base + room) % 1024
            chars := s.store.chars.drop room } }

/-- BREAK takes the line at once from any holder: BREAK_DOWN in ATTENDED mode keys space, a message being
sent ends INTERRUPTED and an answer is abandoned (R38, R54, R84, R158); BREAK_UP ends the break it still
holds (R158); BREAK_LIMIT returns the keyer to mark at the limit (R39). That a space already keyed goes on being
measured from its own date is the model's (assumption 39), as is BREAK_DOWN and BREAK_UP being the whole key events
of BREAK (assumption 22). -/
def Obligations.BreakTakesTheLine : Prop :=
  (∀ (s : State) (u : Ticks), s.working = true → s.keyboard.isDown .brk = false →
    let now := max s.now u
    let pressed : State := { s with now := now, keyboard := s.keyboard.setKey .brk true }
    let moved : State := { pressed with
      mech := { s.mech with motor := s.mech.motor.keyEvent s.loader.params now } }
    let taken : State := { moved with
      keyer := {
        holder := .breakKey
        current := none
        spaceSince := some (s.keyer.spaceSince.getD now) } }
    (s.mech.motor.mode = .unattended →
      Answers (.breakDown u) s fun t => t = pressed.settle) ∧
    (s.mech.motor.mode = .attended → s.keyer.holder = .breakKey →
      Answers (.breakDown u) s fun t => t = moved.settle) ∧
    (s.mech.motor.mode = .attended → s.keyer.holder = .none →
      Answers (.breakDown u) s fun t => t = taken.settle) ∧
    (s.mech.motor.mode = .attended → s.keyer.holder = .message →
      Answers (.breakDown u) s fun t => t =
        (if s.active.any (·.state == .sending) then taken.finishMessage .interrupted .none
         else taken).settle) ∧
    (s.mech.motor.mode = .attended → s.keyer.holder = .answer →
      Answers (.breakDown u) s fun t => t =
        ({ taken with
           matcher := { s.matcher with state := .idle, answer := none } } : State).settle)) ∧
  (∀ (s : State) (u : Ticks), s.working = true → s.keyboard.isDown .brk = true →
    Answers (.breakUp u) s fun t => t =
      ({ s with
         now := max s.now u
         keyboard := s.keyboard.setKey .brk false
         keyer :=
           if s.keyer.holder = .breakKey then
             { holder := .none, current := none, spaceSince := none }
           else s.keyer } : State).settle) ∧
  ∀ (s : State) (since : Ticks), s.working = true → s.keyer.spaceSince = some since →
    s.keyer.holder = .breakKey →
    Answers .breakLimit s fun t => t =
      ({ s with
         now := max s.now (since + 10 * s.loader.params.breakLimit * 120)
         keyer := { holder := .none, current := none, spaceSince := none } } : State).settle

/-! ### The line -/

/-- FILTERED_LEVEL_CHANGE. A run shorter than g leaves the level, its dates and all else; a run of g or more
is confirmed at its g-th sample and dated at its first (R26). A change to space is the start of a character
while the assembler hunts, paused after a mark of the stop element plus 2 units (R28, R31). A change to mark
moves the pause reference, releases a damaged character (R30), and then makes a collision of the space that stopped
the attempt (R41, R53); that the character goes first is assumption 44. A run can begin only at a sample behind the latest one taken, on the grid of eighths
of a unit; the sender says how long it is (assumption 20). -/
def Obligations.LevelChangesAreConfirmedAndDated : Prop :=
  ∀ (s : State) (count : Nat) (date : Ticks), s.working = true →
    let p := s.loader.params
    let now := max s.now (date + (p.glitch - 1) * p.sample)
    let nextSample : Prop := ∃ last, s.receiver.sampled = some last ∧
      last + p.unit / 8 ≤ date ∧ (date - last) % (p.unit / 8) = 0
    let taken := some (date + (count - 1) * p.sample)
    (count = 0 ∨ ¬ nextSample → exec (.filteredLevelChange count date) s = .next s) ∧
    (nextSample → 1 ≤ count → count < p.glitch →
      Answers (.filteredLevelChange count date) s fun t => t =
        { s with receiver := { s.receiver with sampled := some (date + count * p.sample) } }) ∧
    (nextSample → 1 ≤ count → p.glitch ≤ count → s.receiver.level = some .mark →
      Answers (.filteredLevelChange count date) s fun t => t =
        { s with
          now := now
          receiver := { s.receiver with
            level := some .space
            sampled := taken
            spaceDate := some date
            breakReported := false
            openReported := false
            assembler :=
              if s.receiver.assembler = .empty ∧ s.listener.state ≠ .quietWait then
                .assembling date
                  (decide (p.stopElement + 2 * p.unit ≤ date - s.receiver.pauseRef)) false []
              else s.receiver.assembler } }) ∧
    (nextSample → 1 ≤ count → p.glitch ≤ count → s.receiver.level = some .space →
      let marked : State := { s with
        now := now
        receiver := { s.receiver with
          level := some .mark, sampled := taken, markDate := some date, quietReported := false,
          pauseRef := date } }
      (∀ (start : Ticks) (paused : Bool) (code : Code),
        s.receiver.assembler = .withholding start paused code →
        let heard := State.listen
          { marked with receiver := { marked.receiver with assembler := .empty } }
          { code := code, damaged := true, start := start
            stop := max (start + p.charTime) date, paused := paused }
        (s.transmitter.attempt = none →
          Answers (.filteredLevelChange count date) s fun t => t = heard.settle) ∧
        Answers (.filteredLevelChange count date) s fun t => t =
          (match heard.transmitter.attempt.bind Attempt.stopped with
           | some x => if x.spaceDate = s.receiver.spaceDate then heard.collision else heard
           | none => heard).settle) ∧
      ((∀ start paused code, s.receiver.assembler ≠ .withholding start paused code) →
        (s.transmitter.attempt.bind Attempt.stopped = none →
          Answers (.filteredLevelChange count date) s fun t => t = marked.settle) ∧
        (∀ x : Mismatch, s.transmitter.attempt.bind Attempt.stopped = some x →
          Answers (.filteredLevelChange count date) s fun t => t =
            (if x.spaceDate = s.receiver.spaceDate then marked.collision
             else marked).settle)))

/-- START_CENTRE_SAMPLE: space confirms the start, and counts it for a free phase that began less than S
ago; mark discards it (R28, R12). That it counts once confirmed and not when discarded, and that one dated
before T0 counts, are the model's (assumptions 23, 42). DATA_UNIT_SAMPLE: one more place, the highest first,
mark as present (R29). STOP_SAMPLE at space: the damaged character is withheld with its readings (R30). -/
def Obligations.AssemblerReadsTheUnits : Prop :=
  (∀ (s : State) (start : Ticks) (paused : Bool) (bits : List Bool), s.working = true →
    s.receiver.assembler = .assembling start paused false bits →
    let now := max s.now (start + s.loader.params.unit / 2)
    (s.receiver.level = some .space → Answers .startCentreSample s fun t => t =
      { s with
        now := now
        receiver := { s.receiver with assembler := .assembling start paused true [] }
        listener := { s.listener with
          startSeen := s.listener.startSeen ||
            decide (s.listener.state = .freeAnswer ∧
              start < s.listener.t0 + 3 * s.loader.params.charTime) } }) ∧
    (s.receiver.level ≠ some .space → Answers .startCentreSample s fun t => t =
      { s with now := now, receiver := { s.receiver with assembler := .empty } })) ∧
  (∀ (s : State) (start : Ticks) (paused : Bool) (bits : List Bool), s.working = true →
    s.receiver.assembler = .assembling start paused true bits →
    let unit := s.loader.params.unit
    (bits.length < 5 → Answers .dataUnitSample s fun t => t =
      { s with
        now := max s.now (start + (bits.length + 1) * unit + unit / 2)
        receiver := { s.receiver with
          assembler := .assembling start paused true
            (bits ++ [decide (s.receiver.level = some .mark)]) } }) ∧
    (bits.length = 5 → s.receiver.level ≠ some .mark → Answers .stopSample s fun t => t =
      { s with
        now := max s.now (start + 6 * unit + unit / 2)
        receiver := { s.receiver with
          assembler := .withholding start paused (readingsValue bits) } })) ∧
  ∀ a b c d e : Bool, (readingsValue [a, b, c, d, e]).val =
    16 * a.toNat + 8 * b.toNat + 4 * c.toNat + 2 * d.toNat + e.toNat

/-! ### The listener and the call matcher -/

/-- STOP_SAMPLE at mark hands the good character, with its code, start and end, to the listener in every state,
and its stop element becomes the pause reference (R29, R31). A character in QUIET-WAIT is not taken; a damaged
one counts as an error (R23). In IDLE a CONTROL is held, CONTROL CALL opens a message, anything else is
discarded (R16). In HEADER and at the first check character a paused CONTROL is held and not counted; CALL after
it opens a message, and anything else shows that it was a value (R17, R19). In TEXT a CONTROL is held and CONTROL
END goes to CHECK; of a message that does not call this station a character joins the check, CONTROL CANCEL goes to
IDLE, CONTROL CALL opens a message, and any other pair joins the check, the CONTROL first (R18, R4, R5, R21);
of a message that calls it the text is handed on, and a new call or a CANCEL ends it (R18, R80). In an answer phase,
and in IDLE where it began before the phase ended (assumption 14), a character goes to the attempt whose phase it is
(R20, R57). Damage of a pair is kept with the message (R19, assumption 41). -/
def Obligations.CharactersAreFollowed : Prop :=
  (∀ (s : State) (start : Ticks) (paused : Bool) (bits : List Bool), s.working = true →
    s.receiver.assembler = .assembling start paused true bits → bits.length = 5 →
    s.receiver.level = some .mark →
    let p := s.loader.params
    Answers .stopSample s fun t => t = (State.listen
      { s with
        now := max s.now (start + 6 * p.unit + p.unit / 2)
        receiver := { s.receiver with assembler := .empty, pauseRef := start + 6 * p.unit } }
      { code := readingsValue bits, damaged := false, start := start
        stop := start + p.charTime, paused := paused }).settle) ∧
  ∀ (s : State) (c : RxChar),
    let counted := min 63 (s.listener.errors + 1)
    let l : Listener :=
      if c.damaged = true then { s.listener with
        errors := counted
        degraded := s.listener.degraded || decide (s.loader.params.errorThreshold < counted) }
      else s.listener
    let with_ (l' : Listener) : State := { s with listener := l' }
    let late : Prop := ∃ e, l.phaseEnd = some e ∧ c.start < e
    let notCalled : Prop := s.matcher.state = .idle ∧ s.matcher.incoming = none
    let opened (h : RxChar) : Listener := { l with
      state := .header, fields := [], valid := false, held := none, acc := 0, temp := none
      damaged := false, pairDamaged := h.damaged || c.damaged, check := none }
    let fed (xs : List RxChar) : Listener := { l with
      held := none
      acc := (xs.foldl (fun f x => feedCheck f.1 f.2 x.code) (l.acc, l.temp)).1
      temp := (xs.foldl (fun f x => feedCheck f.1 f.2 x.code) (l.acc, l.temp)).2
      damaged := l.damaged || xs.any RxChar.damaged }
    let phase : State := match s.transmitter.attempt with
      | some a =>
        if a.phase.isSome = true then
          { with_ l with
            transmitter := { s.transmitter with heard := s.transmitter.heard ++ [c] } }
        else with_ l
      | none => with_ l
    (l.state = .quietWait → s.listen c = s) ∧
    (l.state = .idle → late → s.listen c = phase) ∧
    (l.state = .slottedAnswers ∨ l.state = .freeAnswer → s.listen c = phase) ∧
    (l.state = .idle → ¬ late →
      (l.held = none → s.listen c =
        with_ (if c.code = 25 then { l with held := some c } else l)) ∧
      ∀ h : RxChar, l.held = some h → s.listen c =
        with_ (if c.code = 1 then opened h else { l with held := none })) ∧
    (l.state = .header ∨ l.state = .check ∧ l.check = none → l.held = none → c.code = 25 →
      c.paused = true → s.listen c = with_ { l with held := some c }) ∧
    (l.state = .header ∨ l.state = .check ∧ l.check = none → notCalled → c.code = 1 →
      ∀ h : RxChar, l.held = some h → s.listen c = with_ (opened h)) ∧
    (l.state = .header → l.fields.length < 3 → c.code ≠ 1 → ∀ h : RxChar, l.held = some h →
      s.listen c = with_ { fed [h, c] with fields := l.fields ++ [h.code, c.code] }) ∧
    (l.state = .header → l.fields.length ≤ 4 → c.code ≠ 1 → ∀ h : RxChar, l.held = some h →
      s.listen c = State.listen
        (State.listen
          { s with listener := { s.listener with
              held := none, damaged := s.listener.damaged || h.damaged } }
          { h with paused := false, damaged := false })
        (if l.fields.length < 4 then { c with paused := false } else c)) ∧
    (l.state = .check → l.check = none → l.held = none → ¬ (c.code = 25 ∧ c.paused = true) →
      s.listen c = with_ { l with check := some c }) ∧
    (l.state = .check → l.check = none → c.code ≠ 1 → ∀ h : RxChar, l.held = some h →
      s.listen c = State.listen
        { s with listener := { s.listener with check := some h, held := none } } c) ∧
    (l.state = .text → l.held = none → c.code = 25 →
      s.listen c = with_ { l with held := some c }) ∧
    (∀ h : RxChar, l.state = .text → l.held = some h → c.code = 2 →
      s.listen c = with_ { l with
        state := .check, held := none, acc := padCheck l.acc l.temp, temp := none
        check := none, pairDamaged := l.pairDamaged || h.damaged || c.damaged }) ∧
    (l.state = .text → notCalled → l.held = none → c.code ≠ 25 →
      s.listen c = with_ (fed [c])) ∧
    (l.state = .text → l.held = none → c.code ≠ 25 →
      s.listen c = (with_ (fed [c])).matchText c) ∧
    (∀ h : RxChar, l.state = .text → l.held = some h →
      c.code ≠ 1 → c.code ≠ 2 → c.code ≠ 3 →
      s.listen c = State.matchText
        { (with_ (fed [h])).matchText h with listener := fed [h, c] } c) ∧
    (∀ (h : RxChar) (i : Incoming), l.held = some h → s.matcher.state = .called →
      s.matcher.incoming = some i →
      (l.state = .text ∧ (c.code = 1 ∨ c.code = 3)) ∨
        (c.code = 1 ∧ (l.state = .header ∨ l.state = .check ∧ l.check = none)) →
      let closed := State.closeReceiveRun (with_ { l with held := none })
        (some (if c.code = 1 then 8 else 6))
      s.listen c = { closed with
        listener := if c.code = 1 then opened h
                    else { opened h with state := .idle, pairDamaged := false }
        log := s.log.finishIn i.logNumber (if c.code = 1 then .broken else .cancelled)
          i.chars i.lost
        matcher := { closed.matcher with state := .idle, incoming := none, answer := none } }) ∧
    ∀ h : RxChar, l.state = .text → notCalled → l.held = some h → c.code ≠ 2 →
      s.listen c = with_
        (if c.code = 1 then opened h
         else if c.code = 3 then
           { opened h with state := .idle, pairDamaged := false }
         else fed [h, c])

/-- The header, taken by count: each character is fed into the check, with its damage (R17, R9), and a damaged
one counts as an error (R23); with the fifth the listener is in TEXT, L is the originator of a valid header
(R2, R22), an invalid header counts as an error (R23), and a header that does not match changes nothing at the
call matcher (R68), nor does one that comes while the call matcher is not IDLE (assumption 36). A matched valid
one makes an unfinished log record and the incoming record (R69); one that is accepted opens its receive run,
and any other writes nothing to the queue (R69, R72); the destinations that the record of such a message holds are
assumption 59. -/
def Obligations.HeaderIsTakenByCount : Prop :=
  ∀ (s : State) (c : RxChar), s.listener.state = .header → s.listener.held = none →
    ¬ (c.code = 25 ∧ c.paused = true) →
    let threshold := s.loader.params.errorThreshold
    let counted (l : Listener) : Listener := { l with
      errors := min 63 (l.errors + 1)
      degraded := l.degraded || decide (threshold < min 63 (l.errors + 1)) }
    let l := if c.damaged = true then counted s.listener else s.listener
    let fed := feedCheck l.acc l.temp c.code
    let took : Listener := { l with
      acc := fed.1, temp := fed.2, damaged := l.damaged || c.damaged
      fields := l.fields ++ [c.code] }
    (l.fields.length < 4 → s.listen c = { s with listener := took }) ∧
    ∀ h : Header, headerOf (l.fields ++ [c.code]) = some h →
      let valid : Prop := ((1 ≤ h.kind.val ∧ h.kind.val ≤ 5) ∨
        (17 ≤ h.kind.val ∧ h.kind.val ≤ 21)) ∧ h.originator.val ≤ 30
      let entered : Listener := { took with
        state := .text, valid := true, lastOriginator := h.originator }
      (¬ valid → s.listen c =
        { s with listener := counted { took with state := .text, valid := false } }) ∧
      (valid → s.loader.matches h = false ∨ s.matcher.state ≠ .idle →
        s.listen c = { s with listener := entered }) ∧
      (valid → s.loader.matches h = true → s.matcher.state = .idle →
        let made := s.log.create h.seq (.incoming h.originator h.kind none 0)
        let taken (accepted : Bool) : State := { s with
          log := made.1
          listener := entered
          matcher := { s.matcher with
            state := .called, answer := none
            incoming := some {
              header := h, logNumber := made.2, disposition := s.disposition h
              toPrint := baseKind h.kind != 3
              toPunch := baseKind h.kind == 3 ||
                (baseKind h.kind == 1 && s.mech.punch.switch == .receive)
              runOpen := accepted, pendingGap := 0, lost := 0, chars := 0 } } }
        (s.disposition h ≠ .accepted → s.listen c = taken false) ∧
        (s.disposition h = .accepted → s.listen c = (taken true).openReceiveRun))

/-- The second check character: the check is good when the sum comes to 1023 and no covered and no check
character was damaged (R9); the phase begins at the end of that character, free for a valid ENQUIRY or STATUS to
one station and slotted otherwise (R10); the result is counted (R23), and an attempt that is SENDING takes the
phase as its own (R19, R56), the latest one it hears (assumption 47). Where this station is called, it gives its
response, CHECK too where a pair was damaged (R77, R13, R19, assumption 41), remembers an accepted message with
a good check (R78), closes its run with the notice of a CHECK or an OVERRUN (R79), finishes its log record
(R81), and is DUE or IDLE (R82). -/
def Obligations.SecondCheckCharacterEndsTheMessage : Prop :=
  ∀ (s : State) (a c : RxChar) (h : Header), s.listener.state = .check →
    s.listener.check = some a → headerOf s.listener.fields = some h →
    let threshold := s.loader.params.errorThreshold
    let counted (l : Listener) : Listener := { l with
      errors := min 63 (l.errors + 1)
      degraded := l.degraded || decide (threshold < min 63 (l.errors + 1)) }
    let l := if c.damaged = true then counted s.listener else s.listener
    let acc := addSymbol l.acc (32 * a.code.val + c.code.val)
    let good := decide (acc = 1023 ∧ l.damaged = false ∧ a.damaged = false ∧ c.damaged = false)
    let whole := good && !l.pairDamaged
    let free := decide (h.valid = true ∧ h.group = 0 ∧ h.station ≠ 31 ∧
      (baseKind h.kind = 4 ∨ baseKind h.kind = 5))
    let ph : Phase := { t0 := c.stop, isFree := free }
    let checked : Listener := { l with acc := acc, held := none, check := none }
    let judged : Listener :=
      if good = false then counted checked
      else if l.valid = true then
        { checked with
          errors := l.errors - 1, degraded := l.degraded && decide (l.errors - 1 ≠ 0) }
      else checked
    let ended : Listener := { judged with
      state := if free then .freeAnswer else .slottedAnswers
      t0 := c.stop, startSeen := false }
    let told : Transmitter :=
      match s.transmitter.attempt with
      | some x =>
        if s.active.any (·.state == .sending) = true ∧ x.granted ≤ s.now then
          { s.transmitter with
            attempt := some { x with phase := some ph, phaseOver := false }, heard := [] }
        else s.transmitter
      | none => s.transmitter
    (s.matcher.state ≠ .called →
      s.listen c = { s with listener := ended, transmitter := told }) ∧
    ∀ i : Incoming, s.matcher.state = .called → s.matcher.incoming = some i →
      let now : State := { s with listener := checked }
      let r := now.response i whole
      let answer := now.formAnswer i r ph
      let peers :=
        if i.disposition = .accepted ∧ whole = true then
          s.matcher.peers.setIfInBounds i.header.originator.val
            (some { seq := i.header.seq, response := r })
        else s.matcher.peers
      let closed := State.closeReceiveRun
        { now with matcher := { s.matcher with peers := peers } }
        (if r = 3 then some 3 else if r = 4 then some 4 else none)
      let outcome : InOutcome :=
        if r = 3 then .checkFailed
        else if i.disposition = .refused then .refused
        else if i.disposition = .duplicate then .duplicate
        else if r = 4 then .overrun
        else if i.disposition = .enquiry ∨ i.disposition = .status then .answered
        else if r = 1 then .complete else .heldComplete
      s.listen c = { closed with
        listener := ended
        transmitter := told
        log := s.log.finishIn i.logNumber outcome i.chars i.lost
        matcher := {
          state := if answer.isSome then .due else .idle
          peers := peers
          carriedGap := closed.matcher.carriedGap
          incoming := none
          answer := answer } }

/-- Who is called and what is refused. A destination station matches when it is 31 or agrees in every place
of the care mask (R67); a header when the station is CONFIGURED, the station matches, the group set is 0 or
shared, and the originator is another (R68). TEXT and PRINT-ONLY are refused by a printer or motor FAULT,
PUNCH-ONLY by a punch or motor FAULT or a switch away from RECEIVE (R71); the dispositions are tried in the
order of R69. -/
def Obligations.CallsAreMatchedAndDisposed : Prop :=
  (∀ own mask station : Code, stationMatches own mask station = true ↔
    station = 31 ∨ ∀ place < 5, mask.val.testBit place = true →
      own.val.testBit place = station.val.testBit place) ∧
  (∀ (l : Loader) (h : Header) (own : Code), l.params.own = some own →
    (l.matches h = true ↔
      l.standing = .configured ∧ stationMatches own l.params.careMask h.station = true ∧
      (h.group = 0 ∨ ∃ place < 5, h.group.val.testBit place = true ∧
        l.params.groupSet.val.testBit place = true) ∧
      h.originator ≠ own)) ∧
  (∀ (m : Mech) (base : Code), base = 1 ∨ base = 2 →
    (m.refuses base = true ↔ m.printer.state = .fault ∨ m.motor.state = .fault)) ∧
  (∀ m : Mech, m.refuses 3 = true ↔
    m.punch.switch ≠ .receive ∨ m.punch.state = .fault ∨ m.motor.state = .fault) ∧
  ∀ (s : State) (h : Header), h.valid = true →
    let base := baseKind h.kind
    let known : Prop := 17 ≤ h.kind.val ∧
      ∃ e, s.matcher.peer h.originator = some e ∧ e.seq = h.seq
    let room : Prop := s.mech.queue.entries.length + 2 +
      (if s.mech.queue.holder = .none then 0 else 1) ≤ 2048
    (base = 4 → s.disposition h = .enquiry) ∧ (base = 5 → s.disposition h = .status) ∧
    (base.val ≤ 3 → known → s.disposition h = .duplicate) ∧
    (base.val ≤ 3 → ¬ known → s.mech.refuses base = true → s.disposition h = .refused) ∧
    (base.val ≤ 3 → ¬ known → s.mech.refuses base = false → room →
      s.disposition h = .accepted) ∧
    (base.val ≤ 3 → ¬ known → s.mech.refuses base = false → ¬ room → s.disposition h = .lost)

/-- The response, by the first row that applies (R77): 3 CHECK, 5 REFUSED, the remembered one of a
duplicate, 4 OVERRUN where characters were lost, 1 ACK to ENQUIRY, STATUS and where every output the run
needs is able, 2 HELD otherwise. The answer is the response and the own number in slot k below N or in a free
phase, 4 units into it, with the content after an ACK to ENQUIRY or STATUS (R82, R83). -/
def Obligations.ResponseFollowsTheTable : Prop :=
  (∀ (s : State) (i : Incoming),
    let able : Prop := s.mech.motor.state ≠ .fault ∧
      (i.toPrint = true → s.mech.printer.state = .off ∨ s.mech.printer.state = .idle ∨
        s.mech.printer.state = .active) ∧
      (i.toPunch = true → s.mech.punch.switch = .receive ∧
        (s.mech.punch.state = .off ∨ s.mech.punch.state = .idle ∨
          s.mech.punch.state = .cycling))
    s.response i false = 3 ∧
    (i.disposition = .refused → s.response i true = 5) ∧
    (∀ e, i.disposition = .duplicate → s.matcher.peer i.header.originator = some e →
      s.response i true = e.response) ∧
    (i.disposition = .lost → s.response i true = 4) ∧
    (i.disposition = .enquiry ∨ i.disposition = .status → i.lost = 0 →
      s.response i true = 1) ∧
    (i.disposition = .accepted ∨ i.disposition = .enquiry ∨ i.disposition = .status →
      0 < i.lost → s.response i true = 4) ∧
    (i.disposition = .accepted → i.lost = 0 → able → s.response i true = 1) ∧
    (i.disposition = .accepted → i.lost = 0 → ¬ able → s.response i true = 2)) ∧
  ∀ (s : State) (i : Incoming) (own r : Code) (t0 : Ticks), s.loader.params.own = some own →
    let p := s.loader.params
    let slotStart := t0 + own.val * (3 * p.charTime) + 4 * p.unit
    (own.val < p.slots → s.formAnswer i r { t0 := t0, isFree := false } =
      some { response := r, chars := [r, own], start := slotStart, supplied := 0 }) ∧
    (p.slots ≤ own.val → s.formAnswer i r { t0 := t0, isFree := false } = none) ∧
    s.formAnswer i r { t0 := t0, isFree := true } =
      some {
        response := r
        chars := [r, own] ++
          (if r = 1 ∧ i.disposition = .enquiry then
             toCode p.answerBack.length :: p.answerBack
           else if r = 1 ∧ i.disposition = .status then s.statusCharacters
           else [])
        start := t0 + 4 * p.unit
        supplied := 0 }

/-- The six status characters: 1 ATTENDED or 2 UNATTENDED; the printer 0 ready, 1 PAPER-OUT, 2 FAULT, 3 motor
FAULT; the punch 0 ready, 1 tape low or out, 2 switch not at RECEIVE, 3 FAULT of the punch or the motor; the
held count up to 31; the line error count ÷ 32 and mod 32 (R14). -/
def Obligations.StatusReportsTheStation : Prop :=
  ∀ s : State,
    let m := s.mech
    ∃ mode printer punch held high low : Code,
      s.statusCharacters = [mode, printer, punch, held, high, low] ∧
      (m.motor.mode = .attended → mode = 1) ∧ (m.motor.mode = .unattended → mode = 2) ∧
      (m.motor.state = .fault → printer = 3 ∧ punch = 3) ∧
      (m.motor.state ≠ .fault →
        (m.printer.state = .fault → printer = 2) ∧
        (m.printer.state = .paperOut → printer = 1) ∧
        (m.printer.state ≠ .fault → m.printer.state ≠ .paperOut → printer = 0) ∧
        (m.punch.state = .fault → punch = 3) ∧
        (m.punch.state ≠ .fault → m.punch.switch ≠ .receive → punch = 2) ∧
        (m.punch.switch = .receive → m.punch.state = .tapeOut ∨ m.punch.state = .tapeLowFinish →
          punch = 1) ∧
        (m.punch.switch = .receive → m.punch.state = .off ∨ m.punch.state = .idle ∨
          m.punch.state = .cycling → punch = 0)) ∧
      held.val = min 31 m.queue.held ∧
      (s.listener.errors ≤ 63 → 32 * high.val + low.val = s.listener.errors)

/-- MARK_LASTING_Q, once for a mark run, at Q units from its date: the line standing returns to NORMAL
(R34); QUIET-WAIT goes to IDLE, a CONTROL held in IDLE is discarded (R16), a free phase ends at the quiet after
a change that followed T0 (R12), that of a false start too (assumption 57), and a slotted phase goes on (R27). The
run stands until its end is confirmed (assumption 58). A message in progress is broken by silence
and the listener is in IDLE (R21): a CONTROL held in its text is completed with function 0 (R4), and a station
it calls closes its run with the notice 8, finishes its record BROKEN and is IDLE (R80, R81). -/
def Obligations.SilenceEndsWhatIsInProgress : Prop :=
  ∀ (s : State) (date : Ticks), s.working = true → s.receiver.level = some .mark →
    s.receiver.markDate = some date →
    let l := s.listener
    let now := max s.now (date + s.loader.params.quiet * s.loader.params.unit)
    let quiet (l' : Listener) : State := { s with
      now := now
      receiver := { s.receiver with quietReported := true, lineOpen := false }
      listener := l' }
    let dropped : Listener := { l with
      state := .idle, fields := [], valid := false, held := none, acc := 0, temp := none
      damaged := false, pairDamaged := false, check := none }
    let told : State := match l.state, l.held with
      | .text, some h => ((quiet l).matchText h).matchText { h with code := 0, damaged := false }
      | _, _ => quiet l
    (s.receiver.quietReported = true → exec .markLastingQ s = .next s) ∧
    (s.receiver.quietReported = false →
      (l.state = .quietWait →
        Answers .markLastingQ s fun t => t = (quiet { l with state := .idle }).settle) ∧
      (l.state = .idle →
        Answers .markLastingQ s fun t => t = (quiet { l with held := none }).settle) ∧
      (l.state = .slottedAnswers →
        Answers .markLastingQ s fun t => t = (quiet l).settle) ∧
      (l.state = .freeAnswer → date ≤ l.t0 →
        Answers .markLastingQ s fun t => t = (quiet l).settle) ∧
      (l.state = .freeAnswer → l.t0 < date → s.transmitter.attempt.bind Attempt.phase = none →
        Answers .markLastingQ s fun t => t =
          ({ quiet { l with state := .idle, phaseEnd := some now, held := none } with
             matcher :=
               if s.matcher.state = .due then
                 { s.matcher with state := .idle, answer := none }
               else s.matcher } : State).settle) ∧
      (l.state = .freeAnswer → l.t0 < date →
        Answers .markLastingQ s fun t => t = ((quiet l).phaseOver now .idle).settle) ∧
      (l.state = .header ∨ l.state = .text ∨ l.state = .check →
        (s.matcher.state ≠ .called →
          Answers .markLastingQ s fun t => t = (quiet dropped).settle) ∧
        ∀ i : Incoming, s.matcher.state = .called → told.matcher.incoming = some i →
          let closed := told.closeReceiveRun (some 8)
          Answers .markLastingQ s fun t => t =
            ({ closed with
               listener := dropped
               log := s.log.finishIn i.logNumber .broken i.chars i.lost
               matcher := { closed.matcher with
                 state := .idle, incoming := none, answer := none } } : State).settle))

/-- BREAK at 2C of a space run, once for the run, and LINE_OPEN at 2 s: the assembler discards what it holds
at the break (R32), the standing is LINE-OPEN at 2 s (R34), the listener goes to QUIET-WAIT whatever it
follows (R16, R20, R21), and a message being sent then ends INTERRUPTED (R52, R54), in this order (assumption
43), while its keying goes on at a break (assumption 35); at LINE-OPEN the keyer stops keying it, and an answer
not (section 3.4, assumption 13). A message in progress is broken: a held CONTROL is completed, and a station
it calls closes its run with the notice 8, finishes its record BROKEN and is IDLE (R21, R80, R81). A phase
ends there: an answer not begun is abandoned (R84), and an attempt that is ANSWERING is judged (R59). The space
run stands until its end is confirmed (assumption 58). -/
def Obligations.BreakAndLineOpenBreakOff : Prop :=
  ∀ (s : State) (date : Ticks) (open_ : Bool), s.working = true →
    s.receiver.level = some .space → s.receiver.spaceDate = some date →
    let l := s.listener
    let c : Instr := if open_ then .lineOpen else .breakEvent
    let reported := if open_ then s.receiver.openReported else s.receiver.breakReported
    let at_ := if open_ then date + 240000 else date + 2 * s.loader.params.charTime
    let struck : State := { s with
      now := max s.now at_
      receiver := if open_ then { s.receiver with openReported := true, lineOpen := true }
                  else { s.receiver with breakReported := true, assembler := .empty } }
    let sending := s.active.any (·.state == .sending)
    let stopped (x : State) : State :=
      if open_ = true ∧ s.keyer.holder = .message then
        { x with keyer := { holder := .none, current := none, spaceSince := none } }
      else x
    let ends (x : State) : State :=
      (stopped (if sending then x.finishMessage .interrupted .none else x)).settle
    let waits : Listener := { l with state := .quietWait, held := none }
    let dropped : Listener := { waits with
      fields := [], valid := false, acc := 0, temp := none
      damaged := false, pairDamaged := false, check := none }
    let told : State := match l.state, l.held with
      | .text, some h => (struck.matchText h).matchText { h with code := 0, damaged := false }
      | _, _ => struck
    let ended : State := { struck with listener := { waits with phaseEnd := some at_ } }
    let undue : State :=
      if s.matcher.state = .due then
        { ended with matcher := { s.matcher with state := .idle, answer := none } }
      else ended
    (reported = true → exec c s = .next s) ∧
    (reported = false →
      (l.state = .idle ∨ l.state = .quietWait →
        Answers c s fun t => t = ends { struck with listener := waits }) ∧
      (l.state = .header ∨ l.state = .text ∨ l.state = .check →
        (s.matcher.state ≠ .called →
          Answers c s fun t => t = ends { struck with listener := dropped }) ∧
        ∀ i : Incoming, s.matcher.state = .called → told.matcher.incoming = some i →
          let closed := told.closeReceiveRun (some 8)
          Answers c s fun t => t = ends { closed with
            listener := dropped
            log := s.log.finishIn i.logNumber .broken i.chars i.lost
            matcher := { closed.matcher with
              state := .idle, incoming := none, answer := none } }) ∧
      (l.state = .slottedAnswers ∨ l.state = .freeAnswer →
        (s.active = none ∨ s.transmitter.attempt.bind Attempt.phase = none →
          Answers c s fun t => t = ends undue) ∧
        (∀ (m : Message) (ph : Phase), s.matcher.state ≠ .due → s.active = some m →
          m.state = .sending → s.transmitter.attempt.bind Attempt.phase = some ph →
          Answers c s fun t => t = ends { ended with
            transmitter := { s.transmitter with
              attempt := s.transmitter.attempt.map fun a => { a with phaseOver := true } } }) ∧
        ∀ (m : Message) (ph : Phase), s.matcher.state ≠ .due → s.active = some m →
          m.state = .answering → s.transmitter.attempt.bind Attempt.phase = some ph →
          s.table.countP OutRecord.isActive ≤ 1 →
          let entries := phaseEntries s.loader.params m ph s.transmitter.heard
          let merged : State := { ended with
            table := onFirst OutRecord.isActive (OutRecord.withMessage fun m =>
              { m with answers := mergeEntries entries m.answers }) s.table }
          Answers c s fun t => t =
            (stopped (match judge s.loader.params m ph s.transmitter.heard with
             | .settled o content => merged.finishMessage o content
             | .retry =>
               { merged with
                 table := onFirst OutRecord.isActive (OutRecord.withMessage fun m =>
                   { m with retries := m.retries + 1, state := .contending }) merged.table
                 transmitter := { s.transmitter with attempt := none, heard := [] } })).settle)) ∧
    ∀ t : State, exec .lineOpen s = .next t → s.receiver.openReported = false → s.tablesSafe →
      t.receiver.lineOpen = true ∧ t.listener.state = .quietWait ∧ t.keyer.holder ≠ .message ∧
      t.active.any (·.state == .sending) = false

/-! ### Answers, judgement, outcomes -/

/-- SLOTTED_PHASE_END at T0 + N × S, and FREE_PHASE_TIMEOUT at T0 + S where no start unit has begun: the
listener is in IDLE and the end is reported (R11, R12, R20). An answer not yet begun is abandoned (R84); the
attempt's own phase is merged into the record's answers and judged, and the record settles or contends again
with one retry more (R59 to R63); where its record is still SENDING the phase is kept, to be judged at the
keyer's report (R56, assumption 38). Outside its phase each command changes nothing (assumption 2), and a start
that is not yet confirmed keeps a free phase open, one that was discarded does not (R12, assumption 23), nor does
one whose change the filter has not yet confirmed (assumption 53). -/
def Obligations.AnswerPhasesEnd : Prop :=
  ∀ (s : State) (c : Instr) (ends : Ticks), s.working = true →
    let p := s.loader.params
    let slot := 3 * p.charTime
    (c = .slottedPhaseEnd → s.listener.state ≠ .slottedAnswers → exec c s = .next s) ∧
    (c = .freePhaseTimeout →
      s.listener.state ≠ .freeAnswer ∨ s.listener.startSeen = true ∨
        (∃ start paused bits, s.receiver.assembler = .assembling start paused false bits ∧
          start < s.listener.t0 + slot) →
      exec c s = .next s) ∧
    ((c = .slottedPhaseEnd ∧ s.listener.state = .slottedAnswers ∧
        ends = s.listener.t0 + p.slots * slot) ∨
      (c = .freePhaseTimeout ∧ s.listener.state = .freeAnswer ∧ s.listener.startSeen = false ∧
        (∀ start paused bits, s.receiver.assembler = .assembling start paused false bits →
          s.listener.t0 + slot ≤ start) ∧ ends = s.listener.t0 + slot) →
      let ended : State := { s with
        now := max s.now ends
        listener := { s.listener with state := .idle, phaseEnd := some ends, held := none } }
      (s.transmitter.attempt.bind Attempt.phase = none →
        Answers c s fun t => t =
          (if s.matcher.state = .due then
             { ended with matcher := { s.matcher with state := .idle, answer := none } }
           else ended).settle) ∧
      (∀ (m : Message) (ph : Phase), s.matcher.state ≠ .due → s.active = some m →
        m.state = .sending → s.transmitter.attempt.bind Attempt.phase = some ph →
        Answers c s fun t => t =
          ({ ended with
             transmitter := { s.transmitter with
               attempt := s.transmitter.attempt.map fun a =>
                 { a with phaseOver := true } } } : State).settle) ∧
      (∀ (m : Message) (ph : Phase), s.matcher.state ≠ .due → s.active = some m →
        m.state = .answering → s.transmitter.attempt.bind Attempt.phase = some ph →
        let entries := phaseEntries p m ph s.transmitter.heard
        let merged : State := { ended with
          table := onFirst OutRecord.isActive (OutRecord.withMessage fun m =>
            { m with answers := mergeEntries entries m.answers }) s.table }
        Answers c s fun t => t =
          (match judge p m ph s.transmitter.heard with
           | .settled o content => merged.finishMessage o content
           | .retry =>
             { merged with
               table := onFirst OutRecord.isActive (OutRecord.withMessage fun m =>
                 { m with retries := m.retries + 1, state := .contending }) merged.table
               transmitter := { s.transmitter with attempt := none, heard := [] } }).settle))

/-- What an answer phase gives. Slot k is ⌊(start − T0) ÷ S⌋, and nothing from before T0 is assigned to one
(R57). A slot of two undamaged characters, a response and the number k, gives that response for station k,
and any other that holds a character a garbled one. A free phase is one answer (R58): nothing heard gives no
entry; a response 1 to 5, a station 0 to 30, no damage, and the length the response and the kind require, give
that station's entry, and after ACK or HELD the n answer-back codes or the six status characters; anything else
a garbled entry for the destination. The merged list stays in strict order of station number, a new entry
replaces the older one of its station, and every other entry stays (R59). -/
def Obligations.AnswersAreCollected : Prop :=
  (∀ (t0 slot k : Nat) (heard : List RxChar) (c : RxChar),
    c ∈ slotChars t0 slot k heard ↔
      c ∈ heard ∧ t0 ≤ c.start ∧ (c.start - t0) / slot = k) ∧
  (∀ k : Code, slotEntry k.val [] = none) ∧
  (∀ (k : Code) (chars : List RxChar), chars ≠ [] →
    let good : Prop := ∃ a b : RxChar, chars = [a, b] ∧ a.damaged = false ∧ b.damaged = false ∧
      1 ≤ a.code.val ∧ a.code.val ≤ 5 ∧ b.code = k
    (good → slotEntry k.val chars =
      some { station := k, response := (chars.map RxChar.code).headD 0 }) ∧
    (¬ good → slotEntry k.val chars = some { station := k, response := 0 })) ∧
  (∀ (p : Params) (m : Message) (t0 : Ticks) (heard : List RxChar) (e : AnswerEntry),
    e ∈ phaseEntries p m { t0 := t0, isFree := false } heard ↔
      ∃ k, k < p.slots ∧ slotEntry k (slotChars t0 (3 * p.charTime) k heard) = some e) ∧
  (∀ (p : Params) (m : Message) (t0 : Ticks) (heard : List RxChar),
    let entries := phaseEntries p m { t0 := t0, isFree := true } heard
    let garbled : AnswerEntry := { station := m.station, response := 0 }
    (heard = [] → freeAnswer m.kind heard = .silent ∧ entries = []) ∧
    (heard.length = 1 ∨ (∃ c ∈ heard, c.damaged = true) →
      freeAnswer m.kind heard = .garbled ∧ entries = [garbled]) ∧
    ∀ (r k : Code) (rest : List Code), heard.map RxChar.code = r :: k :: rest →
      (∀ c ∈ heard, c.damaged = false) →
      let taken : Prop := r = 1 ∨ r = 2
      let whole : Prop :=
        (taken ∧ m.kind = 4 ∧ ∃ n codes, rest = n :: codes ∧ 1 ≤ n.val ∧ n.val ≤ 20 ∧
          codes.length = n.val) ∨
        (taken ∧ m.kind = 5 ∧ rest.length = 6) ∨
        ((taken → m.kind ≠ 4 ∧ m.kind ≠ 5) ∧ rest = [])
      let content : Content :=
        if taken ∧ m.kind = 4 then .answerBack rest.tail
        else if taken ∧ m.kind = 5 then .status rest else .none
      (1 ≤ r.val → r.val ≤ 5 → k.val ≤ 30 → whole →
        freeAnswer m.kind heard = .valid { station := k, response := r } content ∧
        entries = [{ station := k, response := r }]) ∧
      (¬ (1 ≤ r.val ∧ r.val ≤ 5 ∧ k.val ≤ 30 ∧ whole) →
        freeAnswer m.kind heard = .garbled ∧ entries = [garbled])) ∧
  ∀ list entries : List AnswerEntry,
    list.Pairwise (fun a b => a.station < b.station) →
    (mergeEntries entries list).Pairwise (fun a b => a.station < b.station) ∧
    ∀ station : Code,
      (mergeEntries entries list).find? (·.station == station) =
        match entries.reverse.find? (·.station == station) with
        | some e => some e
        | none => list.find? (·.station == station)

/-- The judgement. An individual text message by its destination's entry of this phase (R60); a group or
all message, and a slotted ENQUIRY or STATUS, by the merged list (R61); a free ENQUIRY or STATUS by its one
answer (R62). A retry is given only while the retries used are below the limit (R63). -/
def Obligations.JudgementFollowsTheAnswers : Prop :=
  ∀ (p : Params) (m : Message) (ph : Phase) (heard : List RxChar),
    let text : Prop := m.kind = 1 ∨ m.kind = 2 ∨ m.kind = 3
    let individual : Prop := m.group = 0 ∧ m.station ≠ 31
    let entries := phaseEntries p m ph heard
    let again := if m.retries < p.retryLimit then Verdict.retry else .settled .undelivered .none
    let verdict := judge p m ph heard
    (text → individual →
      (∀ e, entries.find? (·.station == m.station) = some e →
        (e.response = 1 ∨ e.response = 2 → verdict = .settled .delivered .none) ∧
        (e.response = 5 → verdict = .settled .undelivered .none) ∧
        (e.response = 0 ∨ e.response = 3 ∨ e.response = 4 → verdict = again)) ∧
      (entries.find? (·.station == m.station) = none → verdict = again)) ∧
    ((text ∧ ¬ individual) ∨ ((m.kind = 4 ∨ m.kind = 5) ∧ ph.isFree = false) →
      let list := mergeEntries entries m.answers
      let failed : Prop := ∃ e ∈ list, e.response = 3 ∨ e.response = 4
      let taken : Prop := ∃ e ∈ list, e.response = 1 ∨ e.response = 2
      (failed → m.retries < p.retryLimit → verdict = .retry) ∧
      (¬ failed → taken → verdict = .settled .delivered .none) ∧
      (failed → p.retryLimit ≤ m.retries → taken →
        verdict = .settled .partialDelivery .none) ∧
      (failed → p.retryLimit ≤ m.retries → ¬ taken →
        verdict = .settled .undelivered .none) ∧
      (¬ failed → ¬ taken → verdict = .settled .undelivered .none)) ∧
    (m.kind = 4 ∨ m.kind = 5 → ph.isFree = true →
      (∀ e content, freeAnswer m.kind heard = .valid e content →
        (e.response = 1 ∨ e.response = 2 → verdict = .settled .answered content) ∧
        (e.response = 5 → verdict = .settled .undelivered .none) ∧
        (e.response = 3 ∨ e.response = 4 → verdict = again)) ∧
      (freeAnswer m.kind heard = .silent ∨ freeAnswer m.kind heard = .garbled →
        verdict = again))

/-! ### Keyboard and composer -/

/-- A standing is set for its key alone (R139). KEY_DOWN of a data, format or function key joins the key
queue in ATTENDED mode, a data key with the case of the SHIFT standing, and is lost with a bell request when 6
keys wait (R140, R141); motor control is told of it (R162, R165). In UNATTENDED mode, and at KEY_UP, the
standing alone follows. A key held down gives no further event (R139), and KEY_UP of a key that is UP changes
nothing (assumption 2); the KEY_DOWN and KEY_UP of CLEAR, BREAK and TAPE FEED are the events of their own
commands (assumption 22). -/
def Obligations.KeysComeDownAndUp : Prop :=
  (∀ (b : Keyboard) (k k' : Key) (down : Bool),
    (b.setKey k down).isDown k' = if k' = k then down else b.isDown k') ∧
  ∀ (s : State) (k : Key) (u : Ticks), s.working = true →
    let now := max s.now u
    let stands (down : Bool) : State := { s with
      now := now, keyboard := s.keyboard.setKey k down }
    let moved : State := { stands true with
      mech := { s.mech with motor := s.mech.motor.keyEvent s.loader.params now } }
    let case := match k with
      | .data _ => some (if s.keyboard.isDown .shift then Case.numeric else .alpha)
      | _ => none
    (s.keyboard.isDown k = true → exec (.keyDown k u) s = .next s) ∧
    (s.keyboard.isDown k = false →
      (isQueued k = true → s.mech.motor.mode = .unattended →
        Answers (.keyDown k u) s fun t => t = (stands true).settle) ∧
      (isQueued k = true → s.mech.motor.mode = .attended → s.keyboard.queue.length < 6 →
        Answers (.keyDown k u) s fun t => t =
          ({ moved with
             keyboard := { moved.keyboard with
               queue := s.keyboard.queue ++ [{ key := k, case := case }] } } : State).settle) ∧
      (isQueued k = true → s.mech.motor.mode = .attended → 6 ≤ s.keyboard.queue.length →
        Answers (.keyDown k u) s fun t => t =
          ({ moved with
             mech := { moved.mech with
               printer := { s.mech.printer with bell := some (now + 12000) } } } : State).settle) ∧
      (k = .shift → Answers (.keyDown k u) s fun t => t =
        (if s.mech.motor.mode = .attended then moved else stands true).settle)) ∧
    exec (.keyDown .clear u) s = exec (.clear u) s ∧
    exec (.keyDown .brk u) s = exec (.breakDown u) s ∧
    exec (.keyDown .tapeFeed u) s = exec (.tapeFeedDown u) s ∧
    exec (.keyUp .brk u) s = exec (.breakUp u) s ∧
    exec (.keyUp .tapeFeed u) s = exec (.tapeFeedUp u) s ∧
    (s.keyboard.isDown k = false → exec (.keyUp k u) s = .next s) ∧
    (s.keyboard.isDown k = true → k ≠ .brk → k ≠ .tapeFeed →
      Answers (.keyUp k u) s fun t => t = (stands false).settle)

/-- DATA_KEY, FORMAT_KEY, HERE_IS_KEY and BELL_KEY store their codes: a data key its case code where the send
case differs, then its code; a format key its code, SPACE with unshift-on-space leaving ALPHA (R147);
HERE-IS the answer-back in ALPHA (R153); BELL the pair CONTROL BELL, and in LOCAL a bell request alone (R154).
In TEXT they join the message record (R151), in KIND they first make it TEXT (R150); in LOCAL they join the open
local record, or a new one with the send case unknown (R146). Where they find no room they are refused with a
bell request; but an open local record that is the oldest and copied as far as it goes is closed and given back,
its local run ended, OPEN with its RUN-END or SUSPENDED, and they begin a new one (R146, R155, R144). A SPACE that
begins a record under unshift-on-space makes the send case ALPHA with no case code (assumption 51). -/
def Obligations.CharacterKeysAreStored : Prop :=
  ∀ (s : State) (c : Instr) (k : QueuedKey) (rest : List QueuedKey)
    (act : Option Case → List Code × Option Case), s.working = true →
    s.mech.motor.state = .running ∨ s.mech.motor.state = .fault → s.keyboard.queue = k :: rest →
    s.store.chars.length ≤ 1024 →
    let p := s.loader.params
    let state := s.composer.state
    let sends : Prop :=
      (c = .dataKey ∧ ∃ d case, k = { key := .data d, case := some case } ∧
        act = fun sent =>
          (if sent = some case then [dataCode d] else [caseCode case, dataCode d], some case)) ∨
      (c = .formatKey ∧ ∃ code, formatCode k.key = some code ∧
        act = fun sent =>
          ([code], if code = 26 ∧ p.unshift = true then some .alpha else sent)) ∨
      (c = .hereIsKey ∧ k.key = .hereIs ∧
        act = fun sent =>
          ((if sent = some .alpha then [] else [30]) ++ p.answerBack,
            p.answerBack.foldl (fun x code =>
              if code = 29 then some .numeric
              else if code = 30 ∨ (code = 26 ∧ p.unshift = true) then some .alpha
              else x) (some .alpha))) ∨
      (c = .bellKey ∧ k.key = .bell ∧ state ≠ .composeLocal ∧ act = fun sent => ([25, 4], sent))
    let left : State := { s with keyboard := { s.keyboard with queue := rest } }
    let rung : State := { left with
      mech := { s.mech with printer := { s.mech.printer with bell := some (s.now + 12000) } } }
    let stored (a : List Code × Option Case) (table : List OutRecord) : State := { left with
      store := { s.store with chars := s.store.chars ++ a.1 }
      table := table
      composer := { s.composer with sendCase := a.2 } }
    let longer (a : List Code × Option Case) (r : OutRecord) : OutRecord :=
      { r with length := r.length + a.1.length }
    let used := s.store.chars.length
    let now := act s.composer.sendCase
    (sends → state = .text ∨ (state = .composeLocal ∧ s.hasOpenText = true) →
      used + now.1.length ≤ 1024 →
      Answers c s fun t => t = (stored now (onLast (longer now) s.table)).settle) ∧
    (sends → state = .text → 1024 < used + now.1.length →
      Answers c s fun t => t = rung.settle) ∧
    (sends → state = .composeLocal → s.hasOpenText = false →
      s.table.length < 8 → used + (act none).1.length ≤ 1024 →
      Answers c s fun t => t =
        (stored (act none) (s.table ++ [{
          start := (s.store.base + used) % 1024, length := (act none).1.length
          progress := 0, copied := false, body := .text true }])).settle) ∧
    (sends → state = .composeLocal → s.hasOpenText = false →
      8 ≤ s.table.length ∨ 1024 < used + (act none).1.length →
      Answers c s fun t => t = rung.settle) ∧
    (sends → state = .kind → used + now.1.length ≤ 1024 →
      Answers c s fun t => t =
        ({ stored now (onLast (fun r => longer now
             (OutRecord.withMessage (fun m => { m with kind := 1 }) r)) s.table) with
           composer := { s.composer with state := .text, sendCase := now.2 } } : State).settle) ∧
    (sends → state = .kind → 1024 < used + now.1.length →
      Answers c s fun t => t =
        ({ rung with
           table := onLast (OutRecord.withMessage fun m => { m with kind := 1 }) s.table
           composer := { s.composer with state := .text } } : State).settle) ∧
    (∀ r : OutRecord, sends → state = .composeLocal → s.hasOpenText = true →
      1024 < used + now.1.length → s.newest = some r →
      2 ≤ s.table.length ∨ r.progress ≠ r.length → Answers c s fun t => t = rung.settle) ∧
    (∀ r : OutRecord, sends → state = .composeLocal → s.hasOpenText = true →
      1024 < used + now.1.length → s.table = [r] → r.progress = r.length → r.copied = false →
      (act none).1.length ≤ r.length → r.length ≤ used →
      let q := s.mech.queue
      let fresh (m : Mech) : State := { left with
        mech := m
        store := {
          base := (s.store.base + r.length) % 1024
          chars := s.store.chars.drop r.length ++ (act none).1 }
        table := [{
          start := ((s.store.base + r.length) % 1024 + (used - r.length)) % 1024
          length := (act none).1.length
          progress := 0, copied := false, body := .text true }]
        copier := { case := none, inPair := false }
        composer := { s.composer with sendCase := (act none).2 } }
      (q.localRun = .none → Answers c s fun t => t = (fresh s.mech).settle) ∧
      (q.localRun = .suspended → Answers c s fun t => t =
        (fresh { s.mech with
          queue := { q with localRun := .none, copierWaits := false } }).settle) ∧
      (q.localRun = .opened → Answers c s fun t => t = fresh t.mech ∧
        t.mech.queue.localRun = .none ∧ t.mech.queue.holder = .none ∧
        (s.queueSafe → s.mech.motor.state = .fault →
          t.mech.queue.entries = q.entries ++ [.runEnd] ∧
          t.mech.queue.held = q.held + 1))) ∧
    (c = .bellKey → k.key = .bell → state = .composeLocal →
      Answers c s fun t => t = rung.settle)

/-- A message is made. CALL in LOCAL makes a COMPOSING record with the sequence counter's value and an
unfinished log record, and rings where 8 records stand (R148, R44, R173); an open local record is closed before it,
and if it has been copied as far as it goes its local run is closed, and it goes with the finished records before it
(R148, R155, R144); the new record's group, station and kind hold 0, 0
and 1 until they are entered (assumption 50). In ADDRESS digits are taken in
pairs of 0 to 31, the group pair and then the station pair, and any other key rings (R149). In KIND, ENQ and
STATUS close it with base kind 4 and 5, END with kind 1, and CALL goes to TEXT; in TEXT END closes it (R150,
R151). A closed message is READY, its log record has its destination, kind and length, and it contends when
no record is active (R45). -/
def Obligations.MessagesAreComposed : Prop :=
  ∀ (s : State) (k : QueuedKey) (rest : List QueuedKey), s.working = true →
    s.mech.motor.state = .running ∨ s.mech.motor.state = .fault → s.keyboard.queue = k :: rest →
    let state := s.composer.state
    let left : State := { s with keyboard := { s.keyboard with queue := rest } }
    let rung : State := { left with
      mech := { s.mech with printer := { s.mech.printer with bell := some (s.now + 12000) } } }
    let kept (table : List OutRecord) (composer : Composer) : State :=
      { left with table := table, composer := composer }
    let starts : Composer := { state := .address, sendCase := none, group := none, tens := none }
    let idle : Composer := { state := .composeLocal, sendCase := none, group := none, tens := none }
    let made := s.log.create s.transmitter.seq (.outgoing none none none [] .none 0 0)
    (k.key = .call →
      (state = .composeLocal → 8 ≤ s.table.length →
        Answers .callKey s fun t => t = rung.settle) ∧
      (state = .composeLocal → s.table.length < 8 → s.hasOpenText = false →
        Answers .callKey s fun t => t =
          ({ kept (s.table ++ [{
               start := (s.store.base + s.store.chars.length) % 1024, length := 0
               progress := 0, copied := false
               body := .message {
                 logNumber := made.2, group := 0, station := 0, kind := 1
                 seq := s.transmitter.seq, state := .composing, retries := 0
                 collisions := 0, answers := [], content := .none } }]) starts with
             log := made.1
             transmitter := { s.transmitter with seq := s.transmitter.seq + 1 } } : State).settle) ∧
      (state = .composeLocal → s.table.length < 8 → s.hasOpenText = true →
        let shut := State.copierLooks { left with
          table := onLast (fun r => { r with body := .text false }) s.table }
        (Answers .callKey s fun t => t =
          ({ shut with
             table := shut.table ++ [{
               start := (shut.store.base + shut.store.chars.length) % 1024, length := 0
               progress := 0, copied := false
               body := .message {
                 logNumber := made.2, group := 0, station := 0, kind := 1
                 seq := s.transmitter.seq, state := .composing, retries := 0
                 collisions := 0, answers := [], content := .none } }]
             composer := starts
             log := made.1
             transmitter := { s.transmitter with seq := s.transmitter.seq + 1 } } : State).settle) ∧
        ((∀ r, s.copying = some r → r.progress ≠ r.length) →
          shut = { left with
            table := onLast (fun r => { r with body := .text false }) s.table }) ∧
        ∀ r, s.newest = some r → s.copying = some r → s.table.dropLast.all OutRecord.copied = true →
          r.progress = r.length →
          let full := s.table.dropLast ++ [{ r with body := .text false, copied := true }]
          let gone := full.takeWhile OutRecord.finished
          let n := (gone.map OutRecord.length).sum
          shut = { left.closeLocalRun with
            table := full.drop gone.length
            store := { base := (s.store.base + n) % 1024, chars := s.store.chars.drop n }
            copier := { case := none, inPair := false } }) ∧
      (state = .address → Answers .callKey s fun t => t = rung.settle) ∧
      (state = .kind → Answers .callKey s fun t => t =
        (kept (onLast (OutRecord.withMessage fun m => { m with kind := 1 }) s.table)
          { s.composer with state := .text }).settle) ∧
      (state = .text → Answers .callKey s fun t => t = left.settle)) ∧
    (∀ d : Fin 24, k.key = .data d → state = .address →
      (10 ≤ d.val → Answers .dataKey s fun t => t = rung.settle) ∧
      (d.val < 10 → s.composer.tens = none → Answers .dataKey s fun t => t =
        (kept s.table { s.composer with tens := some d.val }).settle) ∧
      ∀ tens : Nat, d.val < 10 → s.composer.tens = some tens →
        let v := 10 * tens + d.val
        (31 < v → Answers .dataKey s fun t => t =
          ({ rung with composer := { s.composer with tens := none } } : State).settle) ∧
        (v ≤ 31 → s.composer.group = none → Answers .dataKey s fun t => t =
          (kept s.table { s.composer with tens := none, group := some (toCode v) }).settle) ∧
        (∀ g, v ≤ 31 → s.composer.group = some g → Answers .dataKey s fun t => t =
          (kept (onLast (OutRecord.withMessage fun m =>
              { m with group := g, station := toCode v }) s.table)
            { s.composer with tens := none, state := .kind }).settle)) ∧
    (state = .address → ∀ c key, (c, key) ∈ [(Instr.formatKey, Key.space), (.formatKey, .ret),
        (.formatKey, .newline), (.endKey, .endKey), (.enqKey, .enq), (.statusKey, .status),
        (.hereIsKey, .hereIs), (.bellKey, .bell)] → k.key = key →
      Answers c s fun t => t = rung.settle) ∧
    (∀ c key, (c, key, state) ∈ [(Instr.endKey, Key.endKey, ComposerState.composeLocal),
        (.enqKey, .enq, .composeLocal), (.statusKey, .status, .composeLocal),
        (.enqKey, .enq, .text), (.statusKey, .status, .text)] → k.key = key →
      Answers c s fun t => t = left.settle) ∧
    ∀ c key kind, (c, key, kind, state) ∈ [(Instr.endKey, Key.endKey, (1 : Code), ComposerState.kind),
        (.endKey, .endKey, 1, .text), (.enqKey, .enq, 4, .kind), (.statusKey, .status, 5, .kind)] →
      k.key = key → ∀ (r : OutRecord) (m : Message), s.newest = some r → r.body = .message m →
      Answers c s fun t => t =
        (State.copierLooks (State.activate
          { kept (onLast (OutRecord.withMessage fun m =>
              { m with kind := kind, state := .ready }) s.table) idle with
            log := s.log.closeReady m.logNumber m.station kind r.length })).settle

/-- CANCEL. While a message is being composed, the record is discarded with its text and its log record
finished CANCELLED, and the composer is in LOCAL (R152, R173); where it is the copier's current record the local run
is closed, OPEN with its RUN-END or SUSPENDED, and otherwise the copier goes on (R156, R92). In LOCAL it is a cancel request: a CONTENDING
record, or one stopped on a mismatch, ends CANCELLED, one being keyed up to its text is marked for CONTROL
CANCEL, and one past its text, ANSWERING or absent stays as it is (R55). It is being keyed up to its text until the
keyer begins the closing CONTROL, which it has been given half a character before (assumption 11). An attempt so
marked supplies what is left of the header, then CONTROL CANCEL at the next supply point, after the function of the
pair being keyed, or CANCEL to the closing CONTROL, and nothing after it (R50, R55). -/
def Obligations.CancelActsByTheState : Prop :=
  (∀ (s : State) (k : QueuedKey) (rest : List QueuedKey), s.working = true →
    s.mech.motor.state = .running ∨ s.mech.motor.state = .fault →
    s.keyboard.queue = k :: rest → k.key = .cancel →
    let left : State := { s with keyboard := { s.keyboard with queue := rest } }
    (∀ (r : OutRecord) (m : Message), s.composer.state ≠ .composeLocal → s.newest = some r →
      r.body = .message m → m.state = .composing →
      let gone : State := { left with
        table := s.table.dropLast
        store := { s.store with
          chars := s.store.chars.take (s.store.chars.length - r.length) }
        log := s.log.finishDiscard m.logNumber
        composer := { state := .composeLocal, sendCase := none, group := none, tens := none } }
      Answers .cancelKey s fun t => t =
        (if s.table.dropLast.all OutRecord.copied = true then
           { gone.closeLocalRun with copier := { case := none, inPair := false } }
         else gone).settle) ∧
    (s.composer.state = .composeLocal →
      (s.active = none → Answers .cancelKey s fun t => t = left.settle) ∧
      ∀ m : Message, s.active = some m →
        (m.state = .contending → Answers .cancelKey s fun t => t =
          (left.finishMessage .cancelled .none).settle) ∧
        (m.state = .answering → Answers .cancelKey s fun t => t = left.settle) ∧
        ∀ a : Attempt, m.state = .sending → s.transmitter.attempt = some a →
          let early : Prop := a.stage = .opening ∨ (∃ n, a.stage = .header n) ∨
            (∃ pos inPair, a.stage = .text pos inPair) ∨
            (a.stage = .closingEnd ∧ ∃ k, s.keyer.current = some k ∧ k.next ≠ .unasked)
          (a.stopped.isSome = true → Answers .cancelKey s fun t => t =
            (left.finishMessage .cancelled .none).settle) ∧
          (a.stopped = none → early →
            Answers .cancelKey s fun t => t =
              ({ left with
                 transmitter := { s.transmitter with
                   attempt := some { a with cancel := true } } } : State).settle) ∧
          (a.stopped = none → ¬ early →
            Answers .cancelKey s fun t => t = left.settle))) ∧
  (∀ s : State,
    let q := s.mech.queue
    let w := s.mech.write s.loader.params s.now .runEnd
    let released (q : CopyQueue) : CopyQueue := { q with
      holder := .none, localRun := .none, offering := !q.requests.isEmpty
      copierWaits := q.copierWaits && !q.requests.isEmpty }
    (q.localRun = .none → s.closeLocalRun = s) ∧
    (q.localRun = .suspended → s.closeLocalRun =
      { s with mech := { s.mech with
          queue := { q with localRun := .none, copierWaits := false } } }) ∧
    (q.localRun = .opened →
      s.closeLocalRun = { s with mech := { w with queue := released w.queue } } ∧
      (s.queueSafe → s.mech.motor.state ≠ .running →
        w = { s.mech with queue := { q with
          entries := q.entries ++ [.runEnd], held := q.held + 1
          watermark := if 1536 ≤ q.entries.length + 1 then .stopped else q.watermark } }))) ∧
  ∀ (a : Attempt) (head text : List Code) (pos more : Nat), a.cancel = true →
    (a.stage = .opening → head.length = 5 →
      Attempt.supplied head text (8 + more) a = 1 :: head ++ [25, 3]) ∧
    (∀ n, a.stage = .header n → n ≤ 4 → head.length = 5 →
      Attempt.supplied head text (7 - n + more) a = head.drop n ++ [25, 3]) ∧
    (a.stage = .text pos false → Attempt.supplied head text (2 + more) a = [25, 3]) ∧
    (a.stage = .closingEnd → Attempt.supplied head text (1 + more) a = [3]) ∧
    (a.stage = .text pos true →
      Attempt.supplied head text (3 + more) a = [sentFunction text[pos]?, 25, 3])

/-- CLEAR, in either mode: a record being composed is discarded, and with it the local run that copies it (R156),
the composer is in LOCAL and the key queue
empty (R157), the line error count is 0 and DEGRADED cleared (R23), and a printer, punch or motor in FAULT leaves
it for the state its supply and the motor give (R123, R131, R166). MODE_EVENT: the mode follows the switch and
a running idle timer restarts from the full time of the new mode (R160, R165); at UNATTENDED the record being
composed is discarded, the open local record closed, and the key queue emptied (R160). CLEAR already down (R139) and
the position the switch stands at already change nothing (assumption 2). -/
def Obligations.ClearAndModeSwitchPutInOrder : Prop :=
  (∀ (s : State) (u : Ticks), s.working = true →
    let now := max s.now u
    let toLocal : Composer := {
      state := .composeLocal
      sendCase := if s.composer.state = .composeLocal then s.composer.sendCase else none
      group := none, tens := none }
    let mended (m : Mech) : Mech := { m with
      motor :=
        if m.motor.state = .fault then
          { m.motor with state := .off, runUp := none, idle := none }
        else m.motor
      printer :=
        if m.printer.state = .fault then
          { m.printer with
            mismatches := 0, synced := false
            state := if m.printer.paper = false then .paperOut
                     else if m.motor.state = .running then .idle else .off }
        else m.printer
      punch :=
        if m.punch.state = .fault then
          { m.punch with
            state :=
              if m.punch.tapePresent = false ∨ m.punch.tapeLow = true then .tapeOut
              else if m.motor.state = .running then .idle else .off }
        else m.punch }
    let cleared (d : State) : State := { d with
      keyboard := { s.keyboard.setKey .clear true with queue := [] }
      composer := toLocal
      listener := { s.listener with errors := 0, degraded := false }
      mech := mended d.mech }
    (s.keyboard.isDown .clear = true → exec (.clear u) s = .next s) ∧
    (s.keyboard.isDown .clear = false →
      (∀ r x, s.newest = some r → r.body = .message x → x.state ≠ .composing) →
      Answers (.clear u) s fun t => t = (cleared { s with now := now }).settle) ∧
    (s.keyboard.isDown .clear = false → ∀ r x, s.newest = some r → r.body = .message x →
      x.state = .composing →
      let gone : State := { s with
        now := now
        table := s.table.dropLast
        store := { s.store with chars := s.store.chars.take (s.store.chars.length - r.length) }
        log := s.log.finishDiscard x.logNumber }
      Answers (.clear u) s fun t => t =
        (cleared
          (if s.table.dropLast.all OutRecord.copied = true then
             { gone.closeLocalRun with copier := { case := none, inPair := false } }
           else gone)).settle)) ∧
  ∀ (s : State) (mode : Mode) (u : Ticks), s.working = true →
    let turned : State := { s with
      now := max s.now u
      mech := { s.mech with
        motor := { s.mech.motor with
          mode := mode
          idle := s.mech.motor.idle.map fun _ => max s.now u + s.loader.params.idleTime mode } } }
    (mode = s.mech.motor.mode → exec (.modeEvent mode u) s = .next s) ∧
    (mode ≠ s.mech.motor.mode → mode = .attended →
      Answers (.modeEvent mode u) s fun t => t = turned.settle) ∧
    (mode ≠ s.mech.motor.mode → mode = .unattended → ∀ r x, s.newest = some r →
      r.body = .message x → x.state = .composing →
      s.table.dropLast.getLast?.any OutRecord.isOpenText = false →
      let gone : State := { turned with
        table := s.table.dropLast
        store := { s.store with
          chars := s.store.chars.take (s.store.chars.length - r.length) }
        log := s.log.finishDiscard x.logNumber }
      Answers (.modeEvent mode u) s fun t => t =
        ({ (if s.table.dropLast.all OutRecord.copied = true then
              { gone.closeLocalRun with copier := { case := none, inPair := false } }
            else gone : State) with
           keyboard := { s.keyboard with queue := [] }
           composer := {
             state := .composeLocal
             sendCase := if s.composer.state = .composeLocal then s.composer.sendCase else none
             group := none, tens := none } } : State).settle) ∧
    (mode ≠ s.mech.motor.mode → mode = .unattended →
      (∀ r x, s.newest = some r → r.body = .message x → x.state ≠ .composing) →
      Answers (.modeEvent mode u) s fun t => t =
        ({ turned.closeOpenText with
           keyboard := { s.keyboard with queue := [] }
           composer := {
             state := .composeLocal
             sendCase := if s.composer.state = .composeLocal then s.composer.sendCase else none
             group := none, tens := none } } : State).settle)

/-! ### The copy queue and its writers -/

/-- LOG_KEY requests the log notice, and a request is dropped when 4 wait (R154, R95). NOTICE_RUN_WRITE tests
the head request, one at each command (assumption 32): while a receive run holds the port it waits (R96), and is
neither formed nor dropped (assumption 54); a
request with no notice is dropped (R97, R177); one whose run does not fit waits (R96); one that fits is written
whole as one run, and an open local run is suspended behind its RUN-END before it (R93, R96). That the port counts
as offered to the requests until the last is tested, and the copier is told then, is assumption 16. With the motor
not RUNNING the readers take nothing, so the entries are the old ones and the run. -/
def Obligations.NoticesAreRequestedAndWritten : Prop :=
  (∀ (s : State) (k : QueuedKey) (rest : List QueuedKey), s.working = true →
    s.mech.motor.state = .running ∨ s.mech.motor.state = .fault →
    s.keyboard.queue = k :: rest → k.key = .log →
    Answers .logKey s fun t => t =
      ({ s with
         keyboard := { s.keyboard with queue := rest }
         mech := { s.mech with
           queue := { s.mech.queue with
             requests :=
               if s.mech.queue.requests.length < 4 then s.mech.queue.requests ++ [.log]
               else s.mech.queue.requests } } } : State).settle) ∧
  (∀ s : State, s.working = true →
    let q := s.mech.queue
    let queued (q' : CopyQueue) : State := { s with mech := { s.mech with queue := q' } }
    (q.holder = .receive → Answers .noticeRunWrite s fun t => t = s.settle) ∧
    (q.holder ≠ .receive → q.requests = [] → Answers .noticeRunWrite s fun t => t =
      (queued { q with offering := false, copierWaits := false }).settle) ∧
    ∀ (r : Request) (rest : List Request), q.holder ≠ .receive → q.requests = r :: rest →
      (formNotice s.loader.params.own s.log r = none →
        Answers .noticeRunWrite s fun t => t =
          (queued { q with
            requests := rest
            offering := decide (rest ≠ [])
            copierWaits := if rest = [] then false else q.copierWaits }).settle) ∧
      ∀ codes : List Code, formNotice s.loader.params.own s.log r = some codes →
        let kept := if q.holder = .none then 0 else 1
        (codes.length + 2 ≤ 2048 → 2048 < q.entries.length + kept + codes.length + 2 →
          Answers .noticeRunWrite s fun t => t =
            (queued { q with offering := false, copierWaits := false }).settle) ∧
        (q.entries.length + kept + codes.length + 2 ≤ 2048 → s.queueSafe →
          s.mech.motor.state ≠ .running →
          Answers .noticeRunWrite s fun t =>
            t = { s with mech := t.mech } ∧
            t.mech.queue.entries = q.entries ++
              (if q.holder = .localRun then [.runEnd] else []) ++
              ([.runStart] ++ codes.map (fun c => .char c false .print) ++ [.runEnd]) ∧
            t.mech.queue.requests = rest ∧ t.mech.queue.holder = .none ∧
            t.mech.queue.held = q.held + (if q.holder = .localRun then 2 else 1) ∧
            t.mech.queue.localRun =
              (if q.holder = .localRun then .suspended else q.localRun) ∧
            t.mech.queue.offering = decide (rest ≠ []) ∧
            t.mech.queue.printAt = q.printAt ∧ t.mech.queue.punchAt = q.punchAt ∧
            t.mech.punch.cycle = s.mech.punch.cycle ∧
            t.mech.printer.column = s.mech.printer.column))

/-- LOCAL_COPIER_WRITE: the character is written to the open local run where the entry for its RUN-END stays
free, or with the run's opener where no run is open (R92, R94), and the progress goes on by 1. The copier's case is
that which the printer will hold (R94): ALPHA, NUMERIC and, under unshift-on-space, SPACE change it, a SPACE before
the first case code too (assumption 48), and a code that completes a CONTROL pair of the open run does not (R109,
assumption 17). While a receive run holds the port, the watermark state is STOPPED or there is no room (R90, R92,
R98), or the port is offered to the notices (assumption 16), the write is refused and nothing else changes; the
copier then waits to be told (assumption 40). With the last character of a closed record its run is closed (R155). -/
def Obligations.LocalCopierWritesItsRecord : Prop :=
  ∀ (s : State) (r : OutRecord) (c : Code), s.working = true →
    s.mech.queue.copierWaits = false → s.copying = some r →
    (s.store.textOf r)[r.progress]? = some c →
    let q := s.mech.queue
    let refused : Prop := q.holder = .receive ∨ q.offering = true ∨ q.watermark = .stopped
    let run := decide (q.localRun = .suspended)
    let case : List Entry := match s.copier.case with
      | some .alpha => [printChar 30]
      | some .numeric => [printChar 29]
      | none => []
    let opener := [printChar 28, printChar 27] ++ if run then case else []
    let dest := if s.mech.punch.switch = .locally then Dest.both else .print
    let pair := decide (q.holder = .localRun) && s.copier.inPair
    let copier : Copier :=
      if pair = true then { case := s.copier.case, inPair := false }
      else {
        case :=
          if c = 29 then some .numeric
          else if c = 30 ∨ (c = 26 ∧ s.loader.params.unshift = true) then some .alpha
          else s.copier.case
        inPair := decide (c = 25) }
    let advanced (t : State) : State := { s with
      mech := t.mech
      copier := copier
      table := onFirst (fun r => !r.copied) (fun r => { r with progress := r.progress + 1 })
        s.table }
    let waits : State := { s with
      mech := { s.mech with queue := { q with copierWaits := true } } }
    (refused → Answers .localCopierWrite s fun t => t = waits) ∧
    (¬ refused → q.holder = .localRun → 2048 < q.entries.length + 2 →
      Answers .localCopierWrite s fun t => t = waits) ∧
    (¬ refused → q.holder = .none → 2048 < q.entries.length + opener.length + 3 →
      Answers .localCopierWrite s fun t => t = waits) ∧
    (¬ refused → s.queueSafe → s.mech.motor.state ≠ .running →
      (q.holder = .localRun → q.entries.length + 2 ≤ 2048 →
        let written := q.entries ++ [.char c false (if q.localPunch then .both else .print)]
        (r.closed = false ∨ r.progress + 1 ≠ r.length →
          Answers .localCopierWrite s fun t => t = advanced t ∧
            t.mech.queue.entries = written ∧ t.mech.queue.holder = .localRun ∧
            t.mech.queue.localRun = .opened) ∧
        (r.closed = true → r.progress + 1 = r.length →
          Answers .localCopierWrite s fun t =>
            t.mech.queue.entries = written ++ [.runEnd] ∧ t.mech.queue.holder = .none ∧
            t.mech.queue.localRun = .none ∧ t.mech.queue.held = q.held + 1 ∧
            t.copier = { case := none, inPair := false })) ∧
      (q.holder = .none → q.entries.length + opener.length + 3 ≤ 2048 →
        let written := q.entries ++ [.runStart] ++ opener ++ [.char c false dest]
        (r.closed = false ∨ r.progress + 1 ≠ r.length →
          Answers .localCopierWrite s fun t => t = advanced t ∧
            t.mech.queue.entries = written ∧
            t.mech.queue.holder = .localRun ∧ t.mech.queue.localRun = .opened ∧
            t.mech.queue.localPunch = decide (s.mech.punch.switch = .locally)) ∧
        (r.closed = true → r.progress + 1 = r.length →
          Answers .localCopierWrite s fun t =>
            t.mech.queue.entries = written ++ [.runEnd] ∧ t.mech.queue.holder = .none ∧
            t.mech.queue.localRun = .none ∧ t.mech.queue.held = q.held + 1 ∧
            t.copier = { case := none, inPair := false })))

/-- A receive run. A text character of a called message adds 1 to the character count, and is written with its
code, its damaged mark and the run's destinations where the message is accepted, or adds 1 to the lost count where
it is LOST (R74, R72). The run opens with RUN-START, the carried gap, RETURN, NEWLINE 1 + b times, ALPHA, and the leader
of BLANKs of a punch-destined run, takes the port, suspends an open local run behind its RUN-END, and signals
the motor (R72, R73, R90, R93, R162). A character is written while two entries are free, behind a GAP where
characters were lost, and is lost and counted otherwise (R74, R75). The close writes a pending gap where two are free,
the in-run notice where it is called for and eight are free, and the RUN-END in its kept entry, and carries a gap it
could not write (R79, R75, R178). An entry joins the tail, and the held count and the watermark state follow (R86,
R102, R98). The writes with the motor not RUNNING, so that the readers take nothing. -/
def Obligations.ReceiveRunsKeepTheirOrder : Prop :=
  (∀ (s : State) (c : RxChar),
    (s.matcher.state ≠ .called → s.matchText c = s) ∧
    ∀ i : Incoming, s.matcher.state = .called → s.matcher.incoming = some i →
      let more : Incoming := { i with chars := min 65535 (i.chars + 1) }
      let holds (i : Incoming) : State :=
        { s with matcher := { s.matcher with incoming := some i } }
      let dest : Dest :=
        if i.toPrint then (if i.toPunch then .both else .print) else .punch
      (i.disposition = .accepted →
        s.matchText c = (holds more).receiveWrite (.char c.code c.damaged dest)) ∧
      (i.disposition = .lost →
        s.matchText c = holds { more with lost := min 255 (i.lost + 1) }) ∧
      (i.disposition ≠ .accepted → i.disposition ≠ .lost → s.matchText c = holds more)) ∧
  (∀ (p : Params) (now : Ticks) (e : Entry) (m : Mech),
    let q := m.queue
    m.write p now e = (Mech.rest { m with queue := { q with
      entries := q.entries ++ [e]
      held := if e = .runEnd then q.held + 1 else q.held
      watermark := if 1536 ≤ q.entries.length + 1 then .stopped else q.watermark } }).pump p now) ∧
  ∀ (s : State) (i : Incoming), s.matcher.incoming = some i → s.mech.queue.bounded →
    s.mech.pointersRest → s.mech.motor.state ≠ .running →
    let q := s.mech.queue
    let p := s.loader.params
    let n := q.entries.length
    let lost (i : Incoming) : Incoming := { i with
      pendingGap := min 255 (i.pendingGap + 1), lost := min 255 (i.lost + 1) }
    (i.pendingGap = 0 → q.holder ≠ .receive →
      (q.holder = .localRun ↔ q.localRun = .opened) →
      let opening := (if q.localRun = .opened then [Entry.runEnd] else []) ++ [.runStart] ++
        (if 0 < s.matcher.carriedGap then [.gap s.matcher.carriedGap .print] else []) ++
        [printChar 28] ++ List.replicate (1 + p.blankLines) (printChar 27) ++ [printChar 30] ++
        (if i.toPunch = true then List.replicate p.leader (.char 0 false .punch) else [])
      n + opening.length + 1 ≤ 2048 →
      let t := s.openReceiveRun
      t.mech.queue.entries = q.entries ++ opening ∧ t.mech.queue.holder = .receive ∧
      t.mech.queue.localRun =
        (if q.localRun = .opened then .suspended else q.localRun) ∧
      t.matcher = { s.matcher with carriedGap := 0 } ∧
      (s.mech.motor.state = .off → t.mech.motor.state = .starting) ∧ t.table = s.table) ∧
    (∀ e : Entry, e.forPrint = true ∨ s.mech.punch.switch ≠ .off →
      (n + 2 ≤ 2048 → i.pendingGap = 0 →
        (s.receiveWrite e).mech.queue.entries = q.entries ++ [e] ∧
        (s.receiveWrite e).matcher = s.matcher) ∧
      (n + 3 ≤ 2048 → 0 < i.pendingGap → i.toPrint = true ∨ s.mech.punch.switch ≠ .off →
        (s.receiveWrite e).mech.queue.entries = q.entries ++ [.gap i.pendingGap i.dest, e] ∧
        (s.receiveWrite e).matcher.incoming = some { i with pendingGap := 0 }) ∧
      (n + 2 = 2048 → 0 < i.pendingGap → i.toPrint = true ∨ s.mech.punch.switch ≠ .off →
        (s.receiveWrite e).mech.queue.entries = q.entries ++ [.gap i.pendingGap i.dest] ∧
        (s.receiveWrite e).matcher.incoming =
          some { i with pendingGap := 1, lost := min 255 (i.lost + 1) }) ∧
      (2048 < n + 2 → s.receiveWrite e =
        { s with matcher := { s.matcher with incoming := some (lost i) } })) ∧
    (∀ d : Option Nat, i.runOpen = false → s.closeReceiveRun d = s) ∧
    (i.runOpen = true → q.holder = .receive →
      ∀ d : Option Nat, (∀ x, d = some x → 1 ≤ x ∧ x ≤ 9) →
      i.toPrint = true ∨ s.mech.punch.switch ≠ .off →
      let o := i.header.originator.val
      let gap : List Entry :=
        if 0 < i.pendingGap ∧ n + 2 ≤ 2048 then [.gap i.pendingGap i.dest] else []
      let notice : List Entry := match d with
        | some x =>
          if n + gap.length + 8 ≤ 2048 then
            [28, 27, 29, toCode (o / 10 + 1), toCode (o % 10 + 1), 26, toCode (x + 1)].map
              fun code => .char code false .print
          else []
        | none => []
      let t := s.closeReceiveRun d
      t.mech.queue.entries = q.entries ++ gap ++ notice ++ [.runEnd] ∧
      t.mech.queue.holder = .none ∧ t.mech.queue.held = q.held + 1 ∧
      t.matcher.carriedGap =
        min 255 (s.matcher.carriedGap + if gap = [] then i.pendingGap else 0) ∧
      t.matcher.incoming = some { i with runOpen := false, pendingGap := 0 })

/-- The traffic log and its notices. A new record joins the newest end, with its counts at 0, under the first
number from the counter on that no record holds, the counter goes on behind that number, and a full log gives up its
oldest finished record (R172). Closing READY sets peer, kind and count, finishing sets the outcome and what comes with
it, a discard gives CANCELLED, and a record that is finished, or has another number, stays as it is (R171, R173, R174).
A value is written highest place first, digit d as the code d + 1, an absent field as 9, 9 (R175). The delivery notice
is formed of a finished outgoing record alone, with its answers and its content (R176, R177), the log notice of every
record, one line of 26 codes each (R179), and the start notice of the number and the state (R180). -/
def Obligations.LogRecordsAndNoticesAreFormed : Prop :=
  let d (x : Nat) : Code := toCode (x % 10 + 1)
  let two (x : Nat) : List Code := [d (x / 10), d x]
  let field (x : Option Code) : List Code := match x with | some c => two c.val | none => [10, 10]
  let outDigit : OutOutcome → Nat := fun o => match o with
    | .delivered => 1 | .partialDelivery => 2 | .undelivered => 3 | .interrupted => 4
    | .lineFailed => 5 | .cancelled => 6 | .answered => 7
  let inDigit : InOutcome → Nat := fun o => match o with
    | .complete => 1 | .heldComplete => 2 | .checkFailed => 3 | .overrun => 4 | .refused => 5
    | .cancelled => 6 | .answered => 7 | .broken => 8 | .duplicate => 9
  (∀ (l : Log) (seq : Code) (body : LogBody), l.records.length ≤ 16 → l.counter < 256 →
    let kept := if l.records.length < 16 then l.records else l.records.eraseP LogRecord.finished
    let n := (l.create seq body).2
    (l.create seq body).1 = {
      records := kept ++ [{ number := n, seq := seq, chars := 0, body := body }]
      counter := (n + 1) % 256 } ∧
    ∃ k, k < 256 ∧ n = (l.counter + k) % 256 ∧ (∀ r ∈ kept, r.number ≠ n) ∧
      ∀ j, j < k → ∃ r ∈ kept, r.number = (l.counter + j) % 256) ∧
  (∀ (l : Log) (n i : Nat) (r : LogRecord), l.records[i]? = some r →
    ∀ (station kind : Code) (length : Nat) (o : OutOutcome) (answers : List AnswerEntry)
      (content : Content) (collisions retries : Nat) (io : InOutcome) (chars lost : Nat),
    let closed := l.closeReady n station kind length
    let settled := l.finishOut n o answers content collisions retries
    let discarded := l.finishDiscard n
    let ended := l.finishIn n io chars lost
    (∀ l' ∈ [closed, settled, discarded, ended],
      l'.counter = l.counter ∧ l'.records.length = l.records.length ∧
      (r.number ≠ n ∨ r.finished = true → l'.records[i]? = some r)) ∧
    (∀ p k a c x y, r.number = n → r.body = .outgoing p k none a c x y →
      closed.records[i]? = some { r with
        chars := length, body := .outgoing (some station) (some kind) none a c x y } ∧
      settled.records[i]? = some { r with
        body := .outgoing p k (some o) answers content collisions retries } ∧
      discarded.records[i]? = some { r with
        body := .outgoing p k (some .cancelled) a c x y }) ∧
    ∀ p k z, r.number = n → r.body = .incoming p k none z →
      ended.records[i]? = some { r with chars := chars, body := .incoming p k (some io) lost }) ∧
  (∀ (r : LogRecord) (p k : Option Code) (o : OutOutcome) (answers : List AnswerEntry)
    (content : Content) (x y : Nat),
    (r.body = .outgoing p k none answers content x y → deliveryNotice r = none) ∧
    (r.body = .outgoing p k (some o) answers content x y →
      deliveryNotice r = some ([28, 27, 29] ++ two r.seq.val ++ [26, d (outDigit o)] ++
        (answers.map fun a => [26] ++ two a.station.val ++ [d a.response.val]).flatten ++
        (match content with
         | .none => []
         | .answerBack codes => [26, 30] ++ codes
         | .status values => (values.map fun v => [26] ++ two v.val).flatten) ++ [28, 27]))) ∧
  (∀ (r : LogRecord) (p k : Code) (o : Option InOutcome) (lost : Nat),
    r.body = .incoming p k o lost → deliveryNotice r = none) ∧
  (∀ (own : Option Code) (l : Log) (n : Nat),
    (l.records.find? (·.number == n) = none → formNotice own l (.delivery n) = none) ∧
    ∀ r, l.records.find? (·.number == n) = some r →
      formNotice own l (.delivery n) = deliveryNotice r) ∧
  (∀ (own : Option Code) (l : Log),
    let line (r : LogRecord) : List Code :=
      [d (r.number / 100), d (r.number / 10), d r.number, 26] ++
      (match r.body with
       | .incoming p k _ _ => [2, 26] ++ two p.val ++ [26] ++ two k.val
       | .outgoing p k _ _ _ _ _ => [3, 26] ++ field p ++ [26] ++ field k) ++
      [26] ++ two r.seq.val ++ [26] ++
      (match r.body with
       | .incoming _ _ o _ => [match o with | some o => d (inDigit o) | none => 1]
       | .outgoing _ _ o _ _ _ _ => [match o with | some o => d (outDigit o) | none => 1]) ++
      [26, d (r.chars / 10000), d (r.chars / 1000), d (r.chars / 100), d (r.chars / 10),
        d r.chars, 26] ++
      (match r.body with
       | .incoming _ _ _ lost => [d (lost / 100), d (lost / 10), d lost]
       | .outgoing _ _ _ _ _ collisions retries => [1, d collisions, d retries])
    formNotice own l .log =
      some ([28, 27, 29] ++ (l.records.map fun r => line r ++ [28, 27]).flatten) ∧
    ∀ r : LogRecord, (line r).length = 26) ∧
  ∀ (own : Code) (l : Log) (n : Nat), n ≤ 2 →
    formNotice (some own) l (.start n) =
      some ([28, 27, 29] ++ two (if n = 0 then own.val else 31) ++ [26, d n, 28, 27]) ∧
    formNotice none l (.start 1) = some ([28, 27, 29] ++ two 31 ++ [26, 2, 28, 27])

/-! ### The mechanism -/

/-- The printer takes the entries in queue order while it is IDLE or ACTIVE, no stop is pending and the motor is
RUNNING (R105, R106). A run boundary discards a held CONTROL; CONTROL is held, and the code after it is taken with no
other effect but BELL's (4) bell request (R109, R125), the closing RETURN of a notice too (assumption 52); 29 and 30 set
the case, 0 and 31 do nothing; a damaged code and a GAP are the error mark, 26, 27 and 28 are SPACE, NEWLINE and RETURN,
any other a strike at 24 × case + code − 1 (R108, R114). A SPACE that steps opens the left-margin contact (assumption 5). Before an entry's operation comes the establishing RETURN while
the column is unknown (R120), and the wrap's RETURN and NEWLINE at the margin (R117), not while a RETURN is in flight
(assumption 9) but that of a wrap that a stop cut short (assumption 27). Each is issued once its resource is free (R107,
R115, R116, R118, R119), and the printer goes on until nothing more can be done. At a take the print pointer goes on
to its next entry, the entries both pointers are past leave, and the punch's entry stays (R99, R101, R102, R98). -/
def Obligations.PrinterTakesEntriesInOrder : Prop :=
  (∀ (p : Params) (now : Ticks) (r : Printer),
    (∀ target, r.issue p now (.strike target) = none) ∧
    (r.platen ≠ .free → r.issue p now .newline = none) ∧
    (r.platen = .free → r.issue p now .newline =
      some { r with platen := .feed (now + 120 * p.lineTime) }) ∧
    (r.carriage ≠ .free → r.issue p now .ret = none ∧ r.issue p now .space = none) ∧
    (r.carriage = .free →
      (r.leftMargin = true → r.issue p now .ret =
        some { r with column := some 1, atMargin := false }) ∧
      (r.leftMargin = false → r.issue p now .ret =
        some { r with carriage := .ret (now + 1200 * p.returnTimeout) true }) ∧
      ∀ c, r.column = some c →
        let case := if p.unshift = true then Case.alpha else r.case
        (c < p.lineLength → r.issue p now .space =
          some { r with
            case := case, carriage := .step (now + 120 * p.carriageStep)
            column := some (c + 1), leftMargin := false }) ∧
        (p.lineLength ≤ c → r.issue p now .space =
          some { r with case := case, atMargin := true }))) ∧
  (∀ m : Mech, (m.printTake).printer = m.printer ∧ (m.printTake).motor = m.motor ∧
    (m.printTake).queue.printEntry =
      (m.queue.entries.drop (m.queue.printAt + 1)).find? Entry.forPrint ∧
    (m.pointersRest → m.punch.switch ≠ .off →
      m.printTake = { m with
        queue := m.queue.movedTo (m.queue.placeFrom Entry.forPrint (m.queue.printAt + 1))
          m.queue.punchAt } ∧
      (m.printTake).queue.punchEntry = m.queue.punchEntry)) ∧
  (∀ e : Entry,
    (e.forPrint = false ↔ (∃ c damaged, e = .char c damaged .punch) ∨ ∃ n, e = .gap n .punch) ∧
    (e.forPunch = false ↔ (∃ c damaged, e = .char c damaged .print) ∨ ∃ n, e = .gap n .print)) ∧
  (∀ (p : Params) (now : Ticks) (m : Mech),
    let r := m.printer
    let takes : Prop := (r.state = .idle ∨ r.state = .active) ∧ r.stop = .none ∧
      m.motor.state = .running
    let returning : Prop := ∃ t, r.carriage = .ret t true
    let with_ (r' : Printer) : Mech := { m with printer := r' }
    let taken (r' : Printer) : Option Mech := some (with_ r').printTake
    let forms (op : PrintOp) : Option Mech := some (with_ { r with head := some op })
    (¬ takes → m.printStep p now = none) ∧
    (takes →
      (∀ op rest, r.internals = op :: rest → m.printStep p now =
        (r.issue p now op).map fun r' => with_ { r' with internals := rest }) ∧
      (r.internals = [] → r.column = none → ¬ returning → m.printStep p now =
        some (with_ { r with internals := [.ret] })) ∧
      (r.internals = [] → r.column ≠ none ∨ returning →
        (∀ op, r.head = some op →
          let wraps : Prop := r.atMargin = true ∧ p.overprint = false ∧
            (¬ returning ∨ r.wrapOwed = true) ∧ (op = .space ∨ ∃ target, op = .strike target)
          (wraps → m.printStep p now =
            some (with_ { r with internals := [.ret, .newline], wrapOwed := false })) ∧
          (¬ wraps → m.printStep p now =
            (r.issue p now op).map fun r' =>
              (with_ { r' with head := none, heldControl := false }).printTake)) ∧
        (r.head = none → m.queue.printEntry = none → m.printStep p now = none) ∧
        (∀ e, r.head = none → m.queue.printEntry = some e → e = .runStart ∨ e = .runEnd →
          m.printStep p now = taken { r with heldControl := false }) ∧
        (∀ lost dest, r.head = none → m.queue.printEntry = some (.gap lost dest) →
          m.printStep p now = forms (.strike 48)) ∧
        (∀ c dest, r.head = none → m.queue.printEntry = some (.char c true dest) →
          m.printStep p now = forms (.strike 48)) ∧
        ∀ c dest, r.head = none → m.queue.printEntry = some (.char c false dest) →
          m.printStep p now =
            if r.heldControl = true then
              taken { r with
                heldControl := false
                bell := if c = 4 then some (now + 12000) else r.bell }
            else if c = 25 then taken { r with heldControl := true }
            else if c = 29 then taken { r with case := .numeric }
            else if c = 30 then taken { r with case := .alpha }
            else if c = 0 ∨ c = 31 then taken r
            else if c = 26 then forms .space
            else if c = 27 then forms .newline
            else if c = 28 then forms .ret
            else forms (.strike (if r.case = .alpha then c.val - 1 else 23 + c.val))))) ∧
  ∀ (p : Params) (now : Ticks) (m : Mech), m.printer.internals.length ≤ 2 →
    (m.settle p now).printStep p now = none

/-- WHEEL_POSITION_EVENT: the wheel count goes up by 1, and 48 is followed by 0 (R110); at the index it is 0
and the wheel SYNCED, a mismatch where it was not 48, and the third in a row is a FAULT, unless the printer is in
FAULT already (R111, R122); that the index check goes on in FAULT is assumption 56. A strike that is first in order fires at the event that makes the count its target, in a
printer that works, with hammer, platen and carriage free; before that it waits, and only the count moves (R112).
HAMMER is asserted for the pulse, the recovery follows, and the column goes up by 1 or the at-margin flag is set
(R113, R117). -/
def Obligations.WheelEventsCountAndFire : Prop :=
  ∀ (s : State) (index : Bool) (u : Ticks), s.working = true →
    let r := s.mech.printer
    let p := s.loader.params
    let after (r' : Printer) : State := s.mechAfter u { s.mech with printer := r' }
    let next := if r.wheel < 48 then r.wheel + 1 else 0
    let first (target : Nat) : Prop :=
      s.mech.motor.state = .running ∧ (r.state = .idle ∨ r.state = .active) ∧ r.stop = .none ∧
        r.internals = [] ∧ r.head = some (.strike target) ∧ r.column ≠ none ∧
        (r.atMargin = false ∨ p.overprint = true) ∧ r.busy = false
    (¬ first next ∨ r.synced = false →
      Answers (.wheelPositionEvent false u) s fun t => t = after { r with wheel := next }) ∧
    (¬ first 0 →
      (r.synced = false → Answers (.wheelPositionEvent true u) s fun t =>
        t = after { r with wheel := 0, synced := true }) ∧
      (r.synced = true → r.wheel = 48 → Answers (.wheelPositionEvent true u) s fun t =>
        t = after { r with wheel := 0, mismatches := 0 }) ∧
      (r.synced = true → r.wheel ≠ 48 → r.mismatches < 2 →
        Answers (.wheelPositionEvent true u) s fun t =>
          t = after { r with wheel := 0, mismatches := r.mismatches + 1 })) ∧
    (r.synced = true → r.wheel ≠ 48 → 2 ≤ r.mismatches →
      Answers (.wheelPositionEvent true u) s fun t => t =
        after (if r.state = .fault then { r with wheel := 0, mismatches := 3 }
          else { r with
            wheel := 0, mismatches := 3, state := .fault, head := none, internals := []
            stop := .none, column := none, atMargin := false, wrapOwed := false
            carriage := match r.carriage with | .ret x _ => .ret x false | x => x })) ∧
    ∀ (target column : Nat), first target → r.column = some column →
      (index = false ∧ r.synced = true ∧ next = target ∨
        index = true ∧ target = 0 ∧
          (r.synced = false ∨ r.wheel = 48 ∨ r.mismatches < 2)) →
      let pulse := max s.now u + 12 * p.hammerPulse
      let below := decide (column < p.lineLength)
      Answers (.wheelPositionEvent index u) s fun t => t =
        s.mechAfter u (Mech.printTake { s.mech with
          printer := { r with
            wheel := target
            synced := true
            mismatches :=
              if index = false ∨ r.synced = false then r.mismatches
              else if r.wheel = 48 then 0 else r.mismatches + 1
            head := none
            heldControl := false
            hammer := some {
              pulseEnd := pulse, recoveryEnd := pulse + 120 * p.hammerRecovery
              pulsing := true }
            platen := .strike
            carriage := .strike below
            column := some (if below then column + 1 else column)
            atMargin := r.atMargin || !below } })

/-- The holds end at their times (R107): the hammer pulse of a strike frees the platen and, where the column
went up, begins the carriage step (R113); the recovery frees the hammer, the step and the line time the carriage
and the platen (R119). LEFT_MARGIN_CONTACT ends a RETURN at column 1 with the at-margin flag clear, and is
disregarded where none is in flight (R118); RETURN_TIMEOUT is a FAULT with the column unknown (R118, R122); a RETURN
that a fault came over only frees the carriage at either (R122); BELL_PULSE_END releases BELL (R125). Nothing else
changes before the mechanism settles. That the contact stands as closed from its event until the carriage steps is
assumption 5. -/
def Obligations.PrinterHoldsEndAtTheirTimes : Prop :=
  ∀ s : State, s.working = true →
    let r := s.mech.printer
    let p := s.loader.params
    let after (u : Ticks) (r' : Printer) : State := s.mechAfter u { s.mech with printer := r' }
    (∀ h : Hammer, r.hammer = some h → h.pulsing = true → r.platen = .strike →
      (r.carriage = .strike true → Answers .hammerPulseEnd s fun t =>
        t = after h.pulseEnd { r with
          hammer := some { h with pulsing := false }, platen := .free
          carriage := .step (h.pulseEnd + 120 * p.carriageStep), leftMargin := false }) ∧
      (r.carriage = .strike false → Answers .hammerPulseEnd s fun t =>
        t = after h.pulseEnd { r with
          hammer := some { h with pulsing := false }, platen := .free, carriage := .free })) ∧
    (∀ h : Hammer, r.hammer = some h → h.pulsing = false →
      Answers .hammerRecoveryEnd s fun t =>
        t = after h.recoveryEnd { r with hammer := none }) ∧
    (∀ u : Ticks, r.carriage = .step u → Answers .carriageStepEnd s fun t =>
      t = after u { r with carriage := .free }) ∧
    (∀ u : Ticks, r.platen = .feed u → Answers .lineTimeEnd s fun t =>
      t = after u { r with platen := .free }) ∧
    (∀ u x : Ticks, r.carriage = .ret x true →
      Answers (.leftMarginContact u) s (fun t => t = after u { r with
        leftMargin := true, carriage := .free, column := some 1, atMargin := false
        wrapOwed := false }) ∧
      Answers .returnTimeout s fun t => t = after x { r with
        carriage := .free, column := none, atMargin := false, wrapOwed := false
        state := .fault, head := none, internals := [], stop := .none }) ∧
    (∀ u x : Ticks, r.carriage = .ret x false →
      Answers (.leftMarginContact u) s (fun t => t = after u { r with
        leftMargin := true, carriage := .free }) ∧
      Answers .returnTimeout s fun t => t = after x { r with carriage := .free }) ∧
    (∀ u : Ticks, (∀ x live, r.carriage ≠ .ret x live) →
      Answers (.leftMarginContact u) s (fun t => t = after u { r with leftMargin := true })) ∧
    ∀ u : Ticks, r.bell = some u → Answers .bellPulseEnd s fun t => t =
      { s with
        now := max s.now u
        mech := { s.mech with printer := { r with bell := none } } }

/-- PAPER_OUT: an IDLE or OFF printer is in PAPER-OUT, and an ACTIVE one withdraws what waits and, with parts
in motion, keeps a stop of paper, or of motor where that stands, until they are released; PAPER_IN cancels a
stop of paper and brings PAPER-OUT back to IDLE or OFF by the motor (R121). A FAULT stays. Of what is withdrawn, a wrap
whose RETURN is in flight stays owed (R117, assumption 27). A command that brings no change of the paper leaves the state
as it is (assumption 2). -/
def Obligations.PaperStopsThePrinter : Prop :=
  ∀ (s : State) (u : Ticks), s.working = true →
    let r := s.mech.printer
    let owed := r.wrapOwed || (match r.carriage with
      | .ret _ true => decide (PrintOp.newline ∈ r.internals)
      | _ => false)
    let after (r' : Printer) : State := s.mechAfter u { s.mech with printer := r' }
    (r.paper = false → exec (.paperOut u) s = .next s) ∧
    (r.paper = true → exec (.paperIn u) s = .next s) ∧
    (r.paper = true →
      (r.state = .idle ∨ r.state = .off → Answers (.paperOut u) s fun t =>
        t = after { r with paper := false, state := .paperOut }) ∧
      (r.state = .active → r.busy = false → Answers (.paperOut u) s fun t =>
        t = after { r with
          paper := false, state := .paperOut, head := none, internals := [] }) ∧
      (r.state = .active → r.busy = true → Answers (.paperOut u) s fun t =>
        t = after { r with
          paper := false, head := none, internals := [], wrapOwed := owed
          stop := if r.stop = .motor then .motor else .paper }) ∧
      (r.state = .fault ∨ r.state = .paperOut → Answers (.paperOut u) s fun t =>
        t = after { r with paper := false })) ∧
    (r.paper = false →
      (r.state = .paperOut → Answers (.paperIn u) s fun t =>
        t = after { r with
          paper := true
          state := if s.mech.motor.state = .running then .idle else .off }) ∧
      (r.state = .active → Answers (.paperIn u) s fun t =>
        t = after { r with
          paper := true, stop := if r.stop = .paper then .none else r.stop }) ∧
      (r.state = .fault ∨ r.state = .idle ∨ r.state = .off → Answers (.paperIn u) s fun t =>
        t = after { r with paper := true }))

/-- The punch takes the entry at its pointer while it is IDLE or CYCLING, or finishes a run on low tape, with the motor
RUNNING, the switch away from OFF, no feeding and no cycle in flight: a code is punched as its row, damaged or not, a GAP
as ERASE, and a run boundary is taken at once and sets the in-run flag (R128, R133); it goes on until nothing more can be
taken. At a take the punch pointer goes on to its next entry, the entries both pointers are past leave, and the printer's
entry stays (R99, R101, R102, R98). PUNCH_PULSE_END releases the magnets; PUNCH_DONE before the end of the pulse is
disregarded, and at or after it completes the cycle (R129): a pending stop takes effect, CONTINUOUS feeding
goes on with a BLANK cycle, ONE-SHOT ends, and otherwise the punch is IDLE (R127, R135, R136). PUNCH_CYCLE_TIMEOUT is a FAULT
with the feed mode NONE (R130). With the magnets already released PUNCH_PULSE_END changes nothing (assumption 2), and in
TAPE-LOW-FINISH the switch counts as it stands at the completion (R137, assumption 49). -/
def Obligations.PunchTakesEntriesInCycles : Prop :=
  (∀ (p : Params) (now : Ticks) (m : Mech),
    let h := m.punch
    let takes : Prop :=
      (h.state = .idle ∨ h.state = .cycling ∨ h.state = .tapeLowFinish ∧ h.inRun = true) ∧
      m.motor.state = .running ∧ h.switch ≠ .off ∧ h.feed = .none ∧ h.cycle = none
    let taken (h' : Punch) : Option Mech := some (Mech.punchTake { m with punch := h' })
    let punches (row : Code) : Option Mech := taken { h with
      cycle := some {
        row := row, issued := now, pulseEnd := now + 120 * p.punchPulse, magnets := true } }
    (¬ takes ∨ m.queue.punchEntry = none → m.punchStep p now = none) ∧
    (takes →
      (∀ c damaged dest, m.queue.punchEntry = some (.char c damaged dest) →
        m.punchStep p now = punches c) ∧
      (∀ lost dest, m.queue.punchEntry = some (.gap lost dest) →
        m.punchStep p now = punches 31) ∧
      (m.queue.punchEntry = some .runStart →
        m.punchStep p now = taken { h with inRun := true }) ∧
      (m.queue.punchEntry = some .runEnd → m.punchStep p now = taken { h with
        inRun := false
        state := if h.state = .tapeLowFinish then .tapeOut else h.state })) ∧
    (h.switch ≠ .off → (m.punchTake).punch = h ∧ (m.punchTake).printer = m.printer ∧
      (m.punchTake).queue.punchEntry =
        (m.queue.entries.drop (m.queue.punchAt + 1)).find? Entry.forPunch ∧
      (m.pointersRest →
        m.punchTake = { m with
          queue := m.queue.movedTo m.queue.printAt
            (m.queue.placeFrom Entry.forPunch (m.queue.punchAt + 1)) } ∧
        (m.punchTake).queue.printEntry = m.queue.printEntry)) ∧
    (m.settle p now).punchStep p now = none ∧
    ((m.settle p now).punch.cycle.isSome = true → h.state = .idle ∨ h.state = .cycling →
      (m.settle p now).punch.state = .cycling)) ∧
  ∀ (s : State) (c : PunchCycle) (u : Ticks), s.working = true → s.mech.punch.cycle = some c →
    let h := s.mech.punch
    let p := s.loader.params
    let now := max s.now u
    let after (h' : Punch) : State := s.mechAfter u { s.mech with punch := h' }
    (c.magnets = false → exec .punchPulseEnd s = .next s) ∧
    (c.magnets = true → Answers .punchPulseEnd s fun t => t =
      { s with
        now := max s.now c.pulseEnd
        mech := { s.mech with
          punch := { h with cycle := some { c with magnets := false } } } }) ∧
    (now < c.pulseEnd → exec (.punchDone u) s = .next s) ∧
    (c.pulseEnd ≤ now → h.state = .cycling →
      (h.stop = true → Answers (.punchDone u) s fun t => t = after { h with
        cycle := none, stop := false
        feed := if h.feed = .oneShot then .none else h.feed
        state := if h.tapePresent = true ∧ h.tapeLow = false then .off else .tapeOut }) ∧
      (h.stop = false → h.tapePresent = false → Answers (.punchDone u) s fun t => t =
        after { h with
          cycle := none, feed := if h.feed = .oneShot then .none else h.feed
          state := .tapeOut }) ∧
      (h.stop = false → h.tapePresent = true → h.feed = .continuous →
        Answers (.punchDone u) s fun t => t = after { h with
          cycle := some {
            row := 0, issued := now, pulseEnd := now + 120 * p.punchPulse
            magnets := true } }) ∧
      (h.stop = false → h.tapePresent = true → h.feed = .none ∨ h.feed = .oneShot →
        Answers (.punchDone u) s fun t => t = after { h with
          cycle := none, feed := .none, state := .idle })) ∧
    (c.pulseEnd ≤ now → h.state = .tapeLowFinish → h.feed = .none →
      Answers (.punchDone u) s fun t => t = after { h with
        cycle := none
        state := if h.tapePresent = false ∨ h.inRun = false ∨ h.switch = .off then .tapeOut
                 else .tapeLowFinish }) ∧
    Answers .punchCycleTimeout s fun t => t =
      s.mechAfter (c.issued + 240 * p.punchTimeout) { s.mech with
        punch := { h with state := .fault, cycle := none, feed := .none, stop := false } }

/-- The tape. TAPE_LOW inside a run lets it be finished, and outside one is TAPE-OUT (R133); TAPE_GONE is
TAPE-OUT once the cycle in flight has ended; TAPE_REPLACED brings the punch back to what the motor and the
cycle give (R134); a change of TAPE LOW while the tape is gone moves the flag alone (R132). Feeding is
cancelled by a tape event (R133, R134), and a FAULT stays. A command that brings no change of the tape leaves the
state as it is (assumption 2). -/
def Obligations.TapeEventsMoveThePunch : Prop :=
  ∀ (s : State) (u : Ticks), s.working = true →
    let h := s.mech.punch
    let after (h' : Punch) : State := s.mechAfter u { s.mech with punch := h' }
    let home : PunchState := if s.mech.motor.state = .running then .idle else .off
    (h.tapeLow = true → h.tapePresent = true → exec (.tapeLow u) s = .next s) ∧
    (h.tapePresent = false → exec (.tapeGone u) s = .next s) ∧
    (h.tapePresent = true → h.tapeLow = false → exec (.tapeReplaced u) s = .next s) ∧
    (h.tapePresent = true → ∀ low, exec (.tapeSensorFlagChange low u) s = .next s) ∧
    (h.tapeLow = false ∨ h.tapePresent = false →
      let low : Punch := { h with tapeLow := true, tapePresent := true }
      (h.state = .off ∨ h.state = .idle → Answers (.tapeLow u) s fun t => t =
        after (if h.inRun = true then
            { low with state := .tapeLowFinish, stop := false, feed := .none }
          else { low with state := .tapeOut, feed := .none })) ∧
      (h.state = .cycling → Answers (.tapeLow u) s fun t => t =
        after { low with state := .tapeLowFinish, stop := false, feed := .none }) ∧
      (h.state = .tapeLowFinish ∨ h.state = .tapeOut → Answers (.tapeLow u) s fun t => t =
        after { low with feed := .none }) ∧
      (h.state = .fault → Answers (.tapeLow u) s fun t => t = after low)) ∧
    (h.tapePresent = true →
      let gone : Punch := { h with tapePresent := false }
      (h.state = .off ∨ h.state = .idle ∨ h.state = .tapeLowFinish ∧ h.cycle = none →
        Answers (.tapeGone u) s fun t => t =
          after { gone with state := .tapeOut, feed := .none }) ∧
      (h.state = .cycling ∨ h.state = .tapeOut ∨
          h.state = .tapeLowFinish ∧ h.cycle.isSome = true →
        Answers (.tapeGone u) s fun t => t = after { gone with feed := .none }) ∧
      (h.state = .fault → Answers (.tapeGone u) s fun t => t = after gone)) ∧
    (h.tapePresent = false ∨ h.tapeLow = true →
      let new : Punch := { h with tapeLow := false, tapePresent := true }
      (h.state = .tapeOut ∨ h.state = .tapeLowFinish ∧ h.cycle = none →
        Answers (.tapeReplaced u) s fun t => t = after { new with state := home }) ∧
      (h.state = .tapeLowFinish → h.cycle.isSome = true →
        Answers (.tapeReplaced u) s fun t => t =
          after { new with
            state := .cycling, stop := decide (s.mech.motor.state ≠ .running) }) ∧
      (h.state = .fault ∨ h.state = .cycling ∨ h.state = .off ∨ h.state = .idle →
        Answers (.tapeReplaced u) s fun t => t = after new)) ∧
    ∀ low : Bool, h.tapePresent = false → low ≠ h.tapeLow →
      Answers (.tapeSensorFlagChange low u) s fun t => t =
        { s with
          now := max s.now u
          mech := { s.mech with punch := { h with tapeLow := low } } }

/-- The operator at the punch. TAPE_FEED_DOWN in ATTENDED mode, with the switch away from OFF, no feeding and
no run, starts BLANK cycles at an IDLE punch and waits for the motor at an OFF one (R135, R159); TAPE_FEED_UP
ends feeding after the cycle in flight (R136). PUNCH_SWITCH_EVENT sets the position, both pins together being
OFF; at OFF feeding ends, a run that low tape let be finished ends in TAPE-OUT, and the punch pointer goes along with
the print pointer: one behind is set to its place, one ahead stays, the entries passed leave, and the in-run flag
follows the run boundaries passed (R137, R100, R101, R128); that it passes no entry by itself is assumption 24. At
RECEIVE and LOCAL each pointer passes what is not for its consumer (R99). The two TAPE FEED commands are the whole events of their key
(assumption 22), and PUNCH_SWITCH_EVENT to the position the switch is at changes nothing (assumption 2). -/
def Obligations.PunchIsOperated : Prop :=
  (∀ (s : State) (u : Ticks), s.working = true →
    let now := max s.now u
    let h := s.mech.punch
    let p := s.loader.params
    (s.keyboard.isDown .tapeFeed = false →
      (s.mech.motor.mode = .unattended → Answers (.tapeFeedDown u) s fun t => t =
        ({ s with
           now := now, keyboard := s.keyboard.setKey .tapeFeed true } : State).settle) ∧
      (s.mech.motor.mode = .attended → Answers (.tapeFeedDown u) s fun t => t =
        ({ s with
           now := now
           keyboard := s.keyboard.setKey .tapeFeed true
           mech := { s.mech with
             motor := s.mech.motor.keyEvent p now
             punch :=
               if h.switch ≠ .off ∧ h.feed = .none ∧ h.inRun = false ∧ h.state = .idle then
                 { h with
                   feed := .continuous
                   state := .cycling
                   cycle := some {
                     row := 0, issued := now, pulseEnd := now + 120 * p.punchPulse
                     magnets := true } }
               else if h.switch ≠ .off ∧ h.feed = .none ∧ h.inRun = false ∧ h.state = .off then
                 { h with feed := .waiting }
               else h } } : State).settle)) ∧
    (s.keyboard.isDown .tapeFeed = true → Answers (.tapeFeedUp u) s fun t => t =
      ({ s with
         now := now
         keyboard := s.keyboard.setKey .tapeFeed false
         mech := { s.mech with
           punch := { h with
             feed := match h.feed with
               | .continuous => .oneShot
               | .waiting => .none
               | x => x } } } : State).settle)) ∧
  (switchPosition false false = .off ∧ switchPosition true true = .off ∧
    switchPosition true false = .receive ∧ switchPosition false true = .locally) ∧
  (∀ m : Mech,
    let q := m.queue
    let print := q.placeFrom Entry.forPrint q.printAt
    let taken := q.placeFrom Entry.forPrint (q.printAt + 1)
    let past (place : Nat) : Mech := { m with
      queue := q.movedTo place (max q.punchAt place)
      punch := { m.punch with
        inRun := inRunPast m.punch.inRun
          ((q.entries.drop q.punchAt).take (place - q.punchAt)) } }
    (m.punch.switch = .off → m.rest = past print ∧ m.printTake = past taken) ∧
    (m.punch.switch ≠ .off → m.rest = { m with
      queue := q.movedTo print (q.placeFrom Entry.forPunch q.punchAt) })) ∧
  ∀ (s : State) (a b : Bool) (u : Ticks), s.working = true →
    let h := s.mech.punch
    let pos := switchPosition a b
    (pos = h.switch → exec (.punchSwitchEvent a b u) s = .next s) ∧
    (pos ≠ h.switch → pos ≠ .off → Answers (.punchSwitchEvent a b u) s fun t => t =
      s.mechAfter u (Mech.rest { s.mech with punch := { h with switch := pos } })) ∧
    (pos ≠ h.switch → pos = .off → s.queueSafe → s.mech.motor.state ≠ .running →
      Answers (.punchSwitchEvent a b u) s fun t =>
        t = { s with now := max s.now u, mech := t.mech } ∧ t.mech.punch.switch = .off ∧
        t.mech.punch.feed = h.feed.stopped ∧
        t.mech.punch.inRun = inRunPast h.inRun
          ((s.mech.queue.entries.drop s.mech.queue.punchAt).take
            (s.mech.queue.printAt - s.mech.queue.punchAt)) ∧
        (h.state = .tapeLowFinish →
          t.mech.punch.state = if h.cycle = none then .tapeOut else .tapeLowFinish) ∧
        t.mech.queue.entries = s.mech.queue.entries.drop s.mech.queue.printAt ∧
        t.mech.queue.printAt = 0 ∧
        t.mech.queue.punchAt = s.mech.queue.punchAt - s.mech.queue.printAt)

/-- The motor. RUN_UP_EXPIRY reads the speed flag once: RUNNING, with the printer and the punch told, or FAULT
(R163, R105, R127). SPEED_OK_CHANGE moves the flag, and a loss while RUNNING is a FAULT (R164).
IDLE_TIMER_EXPIRY is OFF (R165). A motor that leaves RUNNING stops an IDLE printer and punch at once, and those
at work once what is in motion is done, and feeding after the cycle in flight (R105, R127, R136); one that reaches it
cancels a pending stop, or leaves one of paper, brings OFF to IDLE, and begins the feeding that waited, but not inside a
run (R105, R127, R135). A keyboard event starts an OFF motor, and restarts the idle timer of a RUNNING one (R162,
R165). SPEED_OK_CHANGE to the present level changes nothing (assumption 2); a wrap whose RETURN is in flight stays owed
(assumption 27). -/
def Obligations.MotorStartsStopsAndFails : Prop :=
  (∀ s : State, s.working = true →
    let m := s.mech
    let d := m.motor
    let left (state : MotorState) : Mech := { m with
      motor := { d with state := state, runUp := none, idle := none }
      printer := m.printer.motorLeft
      punch := m.punch.motorLeft }
    (∀ u : Ticks, d.runUp = some u →
      (d.speedOk = true → Answers .runUpExpiry s fun t => t =
        s.mechAfter u { m with
          motor := { d with state := .running, runUp := none, idle := none }
          printer := m.printer.motorReached
          punch := m.punch.motorReached s.loader.params (max s.now u) }) ∧
      (d.speedOk = false → Answers .runUpExpiry s fun t => t =
        s.mechAfter u { m with
          motor := { d with state := .fault, runUp := none, idle := none } })) ∧
    (∀ (ok : Bool) (u : Ticks),
      (ok = d.speedOk → exec (.speedOkChange ok u) s = .next s) ∧
      (ok ≠ d.speedOk → ok = true ∨ d.state ≠ .running →
        Answers (.speedOkChange ok u) s fun t => t =
          s.mechAfter u { m with motor := { d with speedOk := ok } }) ∧
      (ok ≠ d.speedOk → ok = false → d.state = .running →
        Answers (.speedOkChange ok u) s fun t => t =
          s.mechAfter u { left .fault with
            motor := { d with speedOk := ok, state := .fault, runUp := none, idle := none } })) ∧
    (∀ u : Ticks, d.idle = some u →
      Answers .idleTimerExpiry s fun t => t = s.mechAfter u (left .off))) ∧
  (∀ r : Printer,
    let owed := r.wrapOwed || (match r.carriage with
      | .ret _ true => decide (PrintOp.newline ∈ r.internals)
      | _ => false)
    (r.state = .idle → r.motorLeft = { r with state := .off }) ∧
    (r.state = .active → r.busy = false →
      r.motorLeft = { r with state := .off, head := none, internals := [] }) ∧
    (r.state = .active → r.busy = true → r.motorLeft =
      { r with stop := .motor, head := none, internals := [], wrapOwed := owed }) ∧
    (r.state = .off ∨ r.state = .paperOut ∨ r.state = .fault → r.motorLeft = r) ∧
    (r.state = .off → r.motorReached = { r with state := .idle }) ∧
    (r.state = .active → r.stop = .motor → r.motorReached =
      { r with stop := if r.paper = true then .none else .paper }) ∧
    (r.state = .active → r.stop ≠ .motor → r.motorReached = r) ∧
    (r.state = .idle ∨ r.state = .paperOut ∨ r.state = .fault → r.motorReached = r)) ∧
  (∀ (p : Params) (now : Ticks) (h : Punch),
    let stopped : FeedMode := match h.feed with
      | .continuous => .oneShot
      | .waiting => .none
      | x => x
    (h.state = .idle → h.motorLeft = { h with state := .off, feed := stopped }) ∧
    (h.state = .cycling → h.motorLeft = { h with stop := true, feed := stopped }) ∧
    (h.state ≠ .idle → h.state ≠ .cycling → h.motorLeft = { h with feed := stopped }) ∧
    (h.state = .off → h.feed ≠ .waiting → h.motorReached p now = { h with state := .idle }) ∧
    (h.state = .off → h.feed = .waiting → h.inRun = true →
      h.motorReached p now = { h with state := .idle, feed := .none }) ∧
    (h.state = .off → h.feed = .waiting → h.inRun = false → h.motorReached p now =
      { h with
        feed := .continuous, state := .cycling
        cycle := some {
          row := 0, issued := now, pulseEnd := now + 120 * p.punchPulse, magnets := true } }) ∧
    (h.state = .cycling → h.motorReached p now = { h with stop := false }) ∧
    (h.state ≠ .off → h.state ≠ .cycling → h.motorReached p now = h)) ∧
  ∀ (p : Params) (now : Ticks) (d : Motor),
    (d.state = .off → d.idle = none → d.keyEvent p now =
      { d with state := .starting, runUp := some (now + 1200 * p.runUp) }) ∧
    (d.state ≠ .off → d.keyEvent p now =
      { d with idle := d.idle.map fun _ => now + p.idleTime d.mode })

/-- What an event leaves of the mechanism once it has settled. Nothing is taken from the queue while the motor
is not RUNNING (R105, R127); a pending stop stands only while parts are in motion (R105, R121); demand starts
an OFF motor with its run-up timer (R162, R163): an entry at the pointer of a consumer that can act, or feeding that
waits or goes on; the idle timer runs exactly while the motor is RUNNING and the mechanism is quiet, with no demand, the
printer and the punch at rest and no receive run open (R165); and the inputs, the port, the requests and the wheel
stay as they were. That demand and quiet are looked at once, at the end of an event, so that a timer that ran before it
goes on where it ran, is the model's (assumption 10). -/
def Obligations.MechanismSettles : Prop :=
  ∀ (p : Params) (now : Ticks) (m : Mech),
    let t := m.settle p now
    let demand : Prop :=
      (t.queue.printEntry.isSome = true ∧ (t.printer.state = .off ∨ t.printer.state = .idle ∨
        t.printer.state = .active ∧ t.printer.stop = .none)) ∨
      (t.queue.punchEntry.isSome = true ∧ t.punch.switch ≠ .off ∧ (t.punch.state = .off ∨
        t.punch.state = .idle ∨ t.punch.state = .cycling ∨ t.punch.state = .tapeLowFinish)) ∨
      t.punch.feed = .waiting ∨ t.punch.feed = .continuous
    let quiet : Prop := ¬ demand ∧
      (t.printer.state = .idle ∨ t.printer.state = .paperOut ∨ t.printer.state = .fault) ∧
      (t.punch.state = .idle ∨ t.punch.state = .tapeOut ∨ t.punch.state = .fault ∨
        t.punch.switch = .off ∧ t.punch.cycle = none ∨
        t.punch.state = .tapeLowFinish ∧ t.punch.cycle = none ∧ t.queue.punchEntry = none) ∧
      t.queue.holder ≠ .receive
    (m.motor.state ≠ .running → t.queue = m.queue ∧ t.punch.cycle = m.punch.cycle ∧
      t.printer.column = m.printer.column ∧ t.printer.hammer = m.printer.hammer ∧
      t.printer.carriage = m.printer.carriage ∧ t.printer.platen = m.printer.platen) ∧
    (t.printer.stop ≠ .none → t.printer.busy = true) ∧
    (m.motor.state = .off → demand → t.motor.state = .starting ∧
      t.motor.runUp = some (now + 1200 * p.runUp)) ∧
    (m.motor.state = .off → ¬ demand → t.motor.state = .off) ∧
    (m.motor.state ≠ .off → t.motor.state = m.motor.state) ∧
    (m.motor.state = .running → quiet →
      t.motor.idle = some (m.motor.idle.getD (now + (match m.motor.mode with
        | .attended => 120000 * p.attendedIdle
        | .unattended => 120000 * p.unattendedIdle)))) ∧
    (m.motor.state ≠ .running ∨ ¬ quiet → t.motor.idle = none) ∧
    (t.motor.mode = m.motor.mode ∧ t.motor.speedOk = m.motor.speedOk ∧
      t.punch.switch = m.punch.switch ∧ t.punch.tapeLow = m.punch.tapeLow ∧
      t.punch.tapePresent = m.punch.tapePresent ∧ t.punch.feed = m.punch.feed ∧
      t.printer.paper = m.printer.paper ∧ t.printer.wheel = m.printer.wheel ∧
      t.printer.synced = m.printer.synced ∧ t.queue.holder = m.queue.holder ∧
      t.queue.localRun = m.queue.localRun ∧ t.queue.requests = m.queue.requests)

/-- What the outside sees. LINE is lit outside IDLE, CALLED while the receive run is open, SENDING while the keyer
has MESSAGE or ANSWER (R168); FAULT while the printer, the punch or the motor is in FAULT or the standing is
UNCONFIGURED, DEGRADED by its standing (R169); KEYBOARD LOCK while the send store holds 1024 characters, HELD while
the held count is above 0, UNATTENDED by the mode (R170). KEYER is asserted while a space is keyed (R25, R36, R38); the
printer's drives follow the holds, HAMMER for the pulse, CARR STEP for a step, CARR RETURN for a RETURN, PLATEN FEED for
a line feed (R107), BELL its pulse (R125); PUNCH 1 to 5 and PUNCH FEED follow the row of the cycle, highest place first,
while its pulse runs (R129); MOTOR ON is asserted in STARTING and RUNNING (R161), CFG SEL through the read (R181). -/
def Obligations.LampsAndPinsShowTheState : Prop :=
  ∀ s : State,
    let lamps := s.lamps
    let pins := s.pins
    let r := s.mech.printer
    (lamps.line = true ↔ s.listener.state ≠ .idle) ∧
    (lamps.called = true ↔ ∃ i, s.matcher.incoming = some i ∧ i.runOpen = true) ∧
    (lamps.sending = true ↔ s.keyer.holder = .message ∨ s.keyer.holder = .answer) ∧
    (lamps.fault = true ↔ r.state = .fault ∨ s.mech.punch.state = .fault ∨
      s.mech.motor.state = .fault ∨ s.loader.standing = .unconfigured) ∧
    (lamps.degraded = true ↔ s.listener.degraded = true) ∧
    (lamps.keyboardLock = true ↔ 1024 ≤ s.store.chars.length) ∧
    (lamps.held = true ↔ 0 < s.mech.queue.held) ∧
    (lamps.unattended = true ↔ s.mech.motor.mode = .unattended) ∧
    (pins.keyer = true ↔ s.keyer.spaceSince ≠ none) ∧
    (s.keyerSafe → ∀ c, s.keyer.current = some c →
      (pins.keyer = true ↔ c.unit = 0 ∨ c.unit ≤ 5 ∧ c.code.val / 2 ^ (5 - c.unit) % 2 = 0)) ∧
    (pins.hammer = true ↔ ∃ h, r.hammer = some h ∧ h.pulsing = true) ∧
    (pins.carrStep = true ↔ ∃ t, r.carriage = .step t) ∧
    (pins.carrReturn = true ↔ ∃ t live, r.carriage = .ret t live) ∧
    (pins.platenFeed = true ↔ ∃ t, r.platen = .feed t) ∧
    (pins.bell = true ↔ r.bell ≠ none) ∧
    (∀ c, s.mech.punch.cycle = some c → c.magnets = true →
      pins.punchFeed = true ∧ pins.punch.length = 5 ∧
      ∀ k : Fin 5, pins.punch[k.val]? = some (decide (c.row.val / 2 ^ (4 - k.val) % 2 = 1))) ∧
    (s.mech.punch.cycle = none ∨ (∃ c, s.mech.punch.cycle = some c ∧ c.magnets = false) →
      pins.punchFeed = false ∧ pins.punch = [false, false, false, false, false]) ∧
    (pins.motorOn = true ↔ s.mech.motor.state = .starting ∨ s.mech.motor.state = .running) ∧
    (pins.cfgSel = true ↔ s.loader.select = true)
end

