-- ==== Sys2Proof/Laws/Queue.lean ====
section
/-! SUPPORT. What the operations of the copy queue and its two readers can do. -/

namespace Sys2Proof.Machine

open Sys2Proof

/-! ### Entries, pointers, leaving -/

@[simp] theorem runEnds_append (a b : List Entry) : runEnds (a ++ b) = runEnds a + runEnds b := by
  simp [runEnds]

@[simp] theorem runEnds_nil : runEnds [] = 0 := rfl

theorem passOver_le (isFor : Entry → Bool) (entries : List Entry) (place : Nat)
    (h : place ≤ entries.length) : passOver isFor entries place ≤ entries.length := by
  have := (List.takeWhile_sublist (l := entries.drop place) (fun e => !isFor e)).length_le
  simp only [List.length_drop] at this
  unfold passOver
  omega

theorem le_passOver (isFor : Entry → Bool) (entries : List Entry) (place : Nat) :
    place ≤ passOver isFor entries place := Nat.le_add_right _ _

/-- A pointer comes to rest at an entry for its consumer or at the tail (R99). -/
theorem passOver_rests (isFor : Entry → Bool) (entries : List Entry) (place : Nat) :
    entries[passOver isFor entries place]?.all isFor = true := by
  unfold passOver
  rw [← List.getElem?_drop]
  generalize entries.drop place = l
  induction l with
  | nil => rfl
  | cons a rest ih =>
    by_cases h : isFor a = true
    · simp [h]
    · simpa [List.takeWhile_cons, h] using ih

@[simp] theorem CopyQueue.append_entries (q : CopyQueue) (e : Entry) :
    (q.append e).entries = q.entries ++ [e] := rfl
@[simp] theorem CopyQueue.append_held (q : CopyQueue) (e : Entry) :
    (q.append e).held = q.held + runEnds [e] := rfl
@[simp] theorem CopyQueue.append_printAt (q : CopyQueue) (e : Entry) :
    (q.append e).printAt = q.printAt := rfl
@[simp] theorem CopyQueue.append_punchAt (q : CopyQueue) (e : Entry) :
    (q.append e).punchAt = q.punchAt := rfl

/-- The part of the queue that readers and writes leave alone: the port, the local run, the requests
and the offer. -/
def CopyQueue.port (q : CopyQueue) : PortHolder × LocalRun × Bool × List Request × Bool :=
  (q.holder, q.localRun, q.localPunch, q.requests, q.offering)

@[simp] theorem CopyQueue.append_port (q : CopyQueue) (e : Entry) : (q.append e).port = q.port := rfl

/-- Leaving takes the first `k` entries off, `k` the lower pointer, and moves both pointers with them
(R101); the held count goes down by the RUN-ENDs among them (R102). -/
theorem CopyQueue.leave_spec (q : CopyQueue) :
    q.leave.entries = q.entries.drop (min q.printAt q.punchAt) ∧
      q.leave.printAt = q.printAt - min q.printAt q.punchAt ∧
      q.leave.punchAt = q.punchAt - min q.printAt q.punchAt ∧
      q.leave.held = q.held - runEnds (q.entries.take (min q.printAt q.punchAt)) ∧
      q.leave.port = q.port := by
  unfold CopyQueue.leave
  dsimp only
  split
  · rename_i h; simp [h]
  · exact ⟨rfl, rfl, rfl, rfl, rfl⟩

@[simp] theorem CopyQueue.leave_port (q : CopyQueue) : q.leave.port = q.port := q.leave_spec.2.2.2.2

theorem CopyQueue.leave_length_le (q : CopyQueue) : q.leave.entries.length ≤ q.entries.length := by
  rw [q.leave_spec.1]; simp

/-! ### Rest and takes -/

@[simp] theorem Mech.rest_motor (m : Mech) : m.rest.motor = m.motor := by
  unfold Mech.rest; dsimp only; split <;> rfl
@[simp] theorem Mech.rest_printer (m : Mech) : m.rest.printer = m.printer := by
  unfold Mech.rest; dsimp only; split <;> rfl
@[simp] theorem Mech.rest_port (m : Mech) : m.rest.queue.port = m.queue.port := by
  unfold Mech.rest; dsimp only; split <;> exact CopyQueue.leave_port _
theorem Mech.rest_length_le (m : Mech) : m.rest.queue.entries.length ≤ m.queue.entries.length := by
  unfold Mech.rest; dsimp only
  split <;> exact CopyQueue.leave_length_le _

/-- Coming to rest changes at most the punch's in-run flag (R128). -/
theorem Mech.rest_punch (m : Mech) : ∃ b, m.rest.punch = { m.punch with inRun := b } := by
  unfold Mech.rest
  dsimp only
  split
  · exact ⟨_, rfl⟩
  · exact ⟨m.punch.inRun, rfl⟩

@[simp] theorem Mech.printTake_motor (m : Mech) : m.printTake.motor = m.motor := by
  simp [Mech.printTake]
@[simp] theorem Mech.printTake_printer (m : Mech) : m.printTake.printer = m.printer := by
  simp [Mech.printTake]
@[simp] theorem Mech.printTake_port (m : Mech) : m.printTake.queue.port = m.queue.port := by
  simp [Mech.printTake]; rfl
@[simp] theorem Mech.punchTake_motor (m : Mech) : m.punchTake.motor = m.motor := by
  simp [Mech.punchTake]
@[simp] theorem Mech.punchTake_printer (m : Mech) : m.punchTake.printer = m.printer := by
  simp [Mech.punchTake]
@[simp] theorem Mech.punchTake_port (m : Mech) : m.punchTake.queue.port = m.queue.port := by
  simp [Mech.punchTake]; rfl
theorem Mech.printTake_length_le (m : Mech) :
    m.printTake.queue.entries.length ≤ m.queue.entries.length := Mech.rest_length_le _
theorem Mech.punchTake_length_le (m : Mech) :
    m.punchTake.queue.entries.length ≤ m.queue.entries.length := Mech.rest_length_le _

/-! ### The readers -/

/-- Everything one move of the printer can be (R106): an internal operation issued; the establishing
RETURN placed (R120); the wrap placed (R117); the operation at the head issued and its entry taken; an
entry taken at once (R108, R109); an entry's operation formed. -/
theorem Mech.printStep_cases {p : Params} {now : Ticks} {m m' : Mech}
    (h : m.printStep p now = some m') :
    m.printing = true ∧
      ((∃ op rest r, m.printer.internals = op :: rest ∧ Printer.issue p now m.printer op = some r ∧
          m' = { m with printer := { r with internals := rest } }) ∨
        (m.printer.internals = [] ∧ m.printer.needsEstablish = true ∧
          m' = { m with printer := { m.printer with internals := [.ret] } }) ∨
        (∃ op, m.printer.internals = [] ∧ m.printer.needsEstablish = false ∧
          m.printer.head = some op ∧ m.printer.needsWrap p op = true ∧
          m' = { m with printer := { m.printer with internals := [.ret, .newline], wrapOwed := false } }) ∨
        (∃ op r, m.printer.internals = [] ∧ m.printer.needsEstablish = false ∧
          m.printer.head = some op ∧ m.printer.needsWrap p op = false ∧
          Printer.issue p now m.printer op = some r ∧
          m' = Mech.printTake { m with printer := { r with head := none, heldControl := false } }) ∨
        (∃ e r, m.printer.internals = [] ∧ m.printer.needsEstablish = false ∧
          m.printer.head = none ∧ m.queue.printEntry = some e ∧ m.printer.instant now e = some r ∧
          m' = Mech.printTake { m with printer := r }) ∨
        (∃ e, m.printer.internals = [] ∧ m.printer.needsEstablish = false ∧
          m.printer.head = none ∧ m.queue.printEntry = some e ∧ m.printer.instant now e = none ∧
          m' = { m with printer := { m.printer with head := some (m.printer.operation e) } })) := by
  unfold Mech.printStep at h
  dsimp only at h
  split at h
  · cases h
  · rename_i hp
    refine ⟨by simpa using hp, ?_⟩
    split at h
    · rename_i op rest hi
      simp only [Option.map_eq_some_iff] at h
      obtain ⟨r, hr, rfl⟩ := h
      exact .inl ⟨op, rest, r, hi, hr, rfl⟩
    · rename_i hi
      split at h
      · cases h
        exact .inr (.inl ⟨hi, ‹_›, rfl⟩)
      · rename_i he
        have he : m.printer.needsEstablish = false := by simpa using he
        split at h
        · rename_i op hh
          split at h
          · cases h
            exact .inr (.inr (.inl ⟨op, hi, he, hh, ‹_›, rfl⟩))
          · rename_i hw
            simp only [Option.map_eq_some_iff] at h
            obtain ⟨r, hr, rfl⟩ := h
            exact .inr (.inr (.inr (.inl ⟨op, r, hi, he, hh, by simpa using hw, hr, rfl⟩)))
        · rename_i hh
          split at h
          · cases h
          · rename_i e hq
            split at h
            · rename_i r hr
              cases h
              exact .inr (.inr (.inr (.inr (.inl ⟨e, r, hi, he, hh, hq, hr, rfl⟩))))
            · rename_i hr
              cases h
              exact .inr (.inr (.inr (.inr (.inr ⟨e, hi, he, hh, hq, hr, rfl⟩))))

/-- What every move of the printer keeps holds after it has gone on to the end (R106). -/
theorem Mech.printRun_induct {p : Params} {now : Ticks} (P : Mech → Prop)
    (move : ∀ m m', P m → m.printStep p now = some m' → P m') :
    ∀ (n : Nat) (m : Mech), P m → P (m.printRun p now n)
  | 0, _, h => h
  | n + 1, m, h => by
    unfold Mech.printRun
    split
    · exact h
    · exact Mech.printRun_induct P move n _ (move _ _ h ‹_›)

/-- Everything one take of the punch can be (R128): a row punched, or a run boundary taken at once. -/
theorem Mech.punchStep_cases {p : Params} {now : Ticks} {m m' : Mech}
    (h : m.punchStep p now = some m') :
    m.punching = true ∧ ∃ e, m.queue.punchEntry = some e ∧
      ((∃ row, e.row = some row ∧
          m' = Mech.punchTake { m with
            punch := { m.punch with cycle := some (Punch.cycleFor p now row) } }) ∨
        (e.row = none ∧
          m' = Mech.punchTake { m with
            punch := { m.punch with
              inRun := e == .runStart
              state := if m.punch.state = .tapeLowFinish ∧ e = .runEnd then .tapeOut
                else m.punch.state } })) := by
  unfold Mech.punchStep at h
  split at h
  · cases h
  · rename_i hp
    refine ⟨by simpa using hp, ?_⟩
    split at h
    · cases h
    · rename_i e he
      refine ⟨e, he, ?_⟩
      dsimp only at h
      split at h
      · rename_i row hr
        cases h
        exact .inl ⟨row, hr, rfl⟩
      · rename_i hr
        cases h
        exact .inr ⟨hr, rfl⟩

/-- What every take of the punch keeps holds after it has gone on to the end (R128). -/
theorem Mech.punchRun_induct {p : Params} {now : Ticks} (P : Mech → Prop)
    (take : ∀ m m', P m → m.punchStep p now = some m' → P m') :
    ∀ (n : Nat) (m : Mech), P m → P (m.punchRun p now n)
  | 0, _, h => h
  | n + 1, m, h => by
    unfold Mech.punchRun
    split
    · exact h
    · exact Mech.punchRun_induct P take n _ (take _ _ h ‹_›)

/-- What every move of either reader keeps holds after both have acted. -/
theorem Mech.pump_induct {p : Params} {now : Ticks} (P : Mech → Prop)
    (move : ∀ m m', P m → m.printStep p now = some m' → P m')
    (take : ∀ m m', P m → m.punchStep p now = some m' → P m') (m : Mech) (h : P m) :
    P (m.pump p now) :=
  Mech.punchRun_induct P take _ _ (Mech.printRun_induct P move _ _ h)

/-- What a write and every move of either reader keep holds after any number of writes. -/
theorem Mech.writeAll_induct {p : Params} {now : Ticks} (P : Mech → Prop)
    (write : ∀ m e, P m → P (m.write p now e)) :
    ∀ (es : List Entry) (m : Mech), P m → P (m.writeAll p now es)
  | [], _, h => h
  | e :: es, m, h => Mech.writeAll_induct P write es _ (write m e h)

/-! ### What the readers leave alone -/

/-- Issuing an operation other than a strike leaves the wheel, the stop, the state and the paper. -/
theorem Printer.issue_frame {p : Params} {now : Ticks} {r r' : Printer} {op : PrintOp}
    (h : Printer.issue p now r op = some r') :
    r'.state = r.state ∧ r'.stop = r.stop ∧ r'.wheel = r.wheel ∧ r'.synced = r.synced ∧
      r'.mismatches = r.mismatches ∧ r'.paper = r.paper ∧ r'.hammer = r.hammer ∧
      r'.internals = r.internals ∧ r'.head = r.head := by
  unfold Printer.issue at h
  cases op with
  | strike _ => cases h
  | space =>
    dsimp only at h
    split at h
    · cases h
      split <;> split <;> simp
    · cases h
  | newline =>
    dsimp only at h
    split at h
    · cases h; simp
    · cases h
  | ret =>
    dsimp only at h
    split at h
    · cases h
      split <;> simp
    · cases h

/-- The printer's moves leave the motor and the port. -/
theorem Mech.printStep_frame {p : Params} {now : Ticks} {m m' : Mech}
    (h : m.printStep p now = some m') :
    m'.motor = m.motor ∧ m'.queue.port = m.queue.port ∧
      m'.queue.entries.length ≤ m.queue.entries.length := by
  obtain ⟨-, ⟨_, _, _, -, -, rfl⟩ | ⟨-, -, rfl⟩ | ⟨_, -, -, -, -, rfl⟩ | ⟨_, _, -, -, -, -, -, rfl⟩ |
    ⟨_, _, -, -, -, -, -, rfl⟩ | ⟨_, -, -, -, -, -, rfl⟩⟩ := Mech.printStep_cases h
  · exact ⟨rfl, rfl, Nat.le_refl _⟩
  · exact ⟨rfl, rfl, Nat.le_refl _⟩
  · exact ⟨rfl, rfl, Nat.le_refl _⟩
  · exact ⟨by simp, by simp, Mech.printTake_length_le _⟩
  · exact ⟨by simp, by simp, Mech.printTake_length_le _⟩
  · exact ⟨rfl, rfl, Nat.le_refl _⟩

/-- The punch's takes leave the motor, the printer and the port. -/
theorem Mech.punchStep_frame {p : Params} {now : Ticks} {m m' : Mech}
    (h : m.punchStep p now = some m') :
    m'.motor = m.motor ∧ m'.printer = m.printer ∧ m'.queue.port = m.queue.port ∧
      m'.queue.entries.length ≤ m.queue.entries.length := by
  obtain ⟨-, _, -, ⟨_, -, rfl⟩ | ⟨-, rfl⟩⟩ := Mech.punchStep_cases h
  · exact ⟨by simp, by simp, by simp, Mech.punchTake_length_le _⟩
  · exact ⟨by simp, by simp, by simp, Mech.punchTake_length_le _⟩

theorem Mech.pump_frame (p : Params) (now : Ticks) (m : Mech) :
    (m.pump p now).motor = m.motor ∧ (m.pump p now).queue.port = m.queue.port ∧
      (m.pump p now).queue.entries.length ≤ m.queue.entries.length := by
  refine Mech.pump_induct (p := p) (now := now)
    (fun x => x.motor = m.motor ∧ x.queue.port = m.queue.port ∧
      x.queue.entries.length ≤ m.queue.entries.length) ?_ ?_ m ⟨rfl, rfl, Nat.le_refl _⟩
  · intro a b ⟨h1, h2, h3⟩ h
    obtain ⟨g1, g2, g3⟩ := Mech.printStep_frame h
    exact ⟨g1.trans h1, g2.trans h2, g3.trans h3⟩
  · intro a b ⟨h1, h2, h3⟩ h
    obtain ⟨g1, -, g2, g3⟩ := Mech.punchStep_frame h
    exact ⟨g1.trans h1, g2.trans h2, g3.trans h3⟩

@[simp] theorem Mech.write_motor (p : Params) (now : Ticks) (e : Entry) (m : Mech) :
    (m.write p now e).motor = m.motor := by
  simp [Mech.write, (Mech.pump_frame p now _).1]
@[simp] theorem Mech.write_port (p : Params) (now : Ticks) (e : Entry) (m : Mech) :
    (m.write p now e).queue.port = m.queue.port := by
  simp [Mech.write, (Mech.pump_frame p now _).2.1]

/-- A write makes the queue longer by at most its one entry (R86). -/
theorem Mech.write_length_le (p : Params) (now : Ticks) (e : Entry) (m : Mech) :
    (m.write p now e).queue.entries.length ≤ m.queue.entries.length + 1 := by
  unfold Mech.write
  refine (Mech.pump_frame p now _).2.2.trans ((Mech.rest_length_le _).trans ?_)
  simp

@[simp] theorem Mech.writeAll_motor (p : Params) (now : Ticks) (es : List Entry) (m : Mech) :
    (m.writeAll p now es).motor = m.motor := by
  induction es generalizing m with
  | nil => rfl
  | cons e es ih => simp [Mech.writeAll, ih]
@[simp] theorem Mech.writeAll_port (p : Params) (now : Ticks) (es : List Entry) (m : Mech) :
    (m.writeAll p now es).queue.port = m.queue.port := by
  induction es generalizing m with
  | nil => rfl
  | cons e es ih => simp [Mech.writeAll, ih]
theorem Mech.writeAll_length_le (p : Params) (now : Ticks) (es : List Entry) (m : Mech) :
    (m.writeAll p now es).queue.entries.length ≤ m.queue.entries.length + es.length := by
  induction es generalizing m with
  | nil => simp [Mech.writeAll]
  | cons e es ih =>
    have h1 := ih (m.write p now e)
    have h2 := Mech.write_length_le p now e m
    simp only [Mech.writeAll, List.length_cons]
    omega

/-! ### Settling -/

@[simp] theorem Mech.printStand_queue (m : Mech) : m.printStand.queue = m.queue := by
  unfold Mech.printStand; dsimp only; split <;> split <;> rfl
@[simp] theorem Mech.printStand_motor (m : Mech) : m.printStand.motor = m.motor := by
  unfold Mech.printStand; dsimp only; split <;> split <;> rfl
@[simp] theorem Mech.printStand_punch (m : Mech) : m.printStand.punch = m.punch := by
  unfold Mech.printStand; dsimp only; split <;> split <;> rfl

/-- Standing changes at most the printer's state and its pending stop (R104, R105, R121). -/
theorem Mech.printStand_printer (m : Mech) :
    ∃ st x, m.printStand.printer = { m.printer with state := st, stop := x } := by
  unfold Mech.printStand
  dsimp only
  split <;> split <;> exact ⟨_, _, rfl⟩

@[simp] theorem Mech.punchStand_queue (m : Mech) : m.punchStand.queue = m.queue := by
  unfold Mech.punchStand; dsimp only; split
  · rfl
  · rfl
  · split <;> rfl
  · rfl
@[simp] theorem Mech.punchStand_motor (m : Mech) : m.punchStand.motor = m.motor := by
  unfold Mech.punchStand; dsimp only; split
  · rfl
  · rfl
  · split <;> rfl
  · rfl
@[simp] theorem Mech.punchStand_printer (m : Mech) : m.punchStand.printer = m.printer := by
  unfold Mech.punchStand; dsimp only; split
  · rfl
  · rfl
  · split <;> rfl
  · rfl

/-- Standing changes at most the punch's state (R126, R133). -/
theorem Mech.punchStand_punch (m : Mech) :
    ∃ st, m.punchStand.punch = { m.punch with state := st } := by
  unfold Mech.punchStand
  dsimp only
  split
  · exact ⟨_, rfl⟩
  · exact ⟨_, rfl⟩
  · split
    · exact ⟨_, rfl⟩
    · exact ⟨m.punch.state, rfl⟩
  · exact ⟨m.punch.state, rfl⟩

@[simp] theorem Mech.lookAtDemand_queue (p : Params) (now : Ticks) (m : Mech) :
    (m.lookAtDemand p now).queue = m.queue := by unfold Mech.lookAtDemand; split <;> rfl
@[simp] theorem Mech.lookAtDemand_printer (p : Params) (now : Ticks) (m : Mech) :
    (m.lookAtDemand p now).printer = m.printer := by unfold Mech.lookAtDemand; split <;> rfl
@[simp] theorem Mech.lookAtDemand_punch (p : Params) (now : Ticks) (m : Mech) :
    (m.lookAtDemand p now).punch = m.punch := by unfold Mech.lookAtDemand; split <;> rfl
@[simp] theorem Mech.watchIdle_queue (p : Params) (now : Ticks) (m : Mech) :
    (m.watchIdle p now).queue = m.queue := rfl
@[simp] theorem Mech.watchIdle_printer (p : Params) (now : Ticks) (m : Mech) :
    (m.watchIdle p now).printer = m.printer := rfl
@[simp] theorem Mech.watchIdle_punch (p : Params) (now : Ticks) (m : Mech) :
    (m.watchIdle p now).punch = m.punch := rfl

/-- A start event touches an OFF motor only, which becomes STARTING with its run-up timer (R162, R163). -/
theorem Motor.startEvent_cases (p : Params) (now : Ticks) (d : Motor) :
    d.startEvent p now = d ∨
      (d.state = .off ∧
        d.startEvent p now =
          { d with state := .starting, runUp := some (now + ms (10 * p.runUp)) }) := by
  unfold Motor.startEvent
  split
  · exact .inr ⟨‹_›, rfl⟩
  · exact .inl rfl

/-- Settling leaves the port, and makes the queue no longer. -/
theorem Mech.settle_frame (p : Params) (now : Ticks) (m : Mech) :
    (m.settle p now).queue.port = m.queue.port ∧
      (m.settle p now).queue.entries.length ≤ m.queue.entries.length := by
  have h := Mech.pump_frame p now m.printStand
  simp only [Mech.printStand_queue] at h
  exact ⟨by simpa [Mech.settle] using h.2.1, by simpa [Mech.settle] using h.2.2⟩

/-- Settling changes the motor at most by a start event and its idle timer (R162, R165). -/
theorem Mech.settle_motor (p : Params) (now : Ticks) (m : Mech) :
    ∃ timer, (m.settle p now).motor = { m.motor with idle := timer } ∨
      (m.motor.state = .off ∧ (m.settle p now).motor = { m.motor with
        state := .starting, runUp := some (now + ms (10 * p.runUp)), idle := timer }) := by
  have hm : (((m.printStand.pump p now).printStand).punchStand).motor = m.motor := by
    simp [(Mech.pump_frame p now m.printStand).1]
  unfold Mech.settle Mech.watchIdle Mech.lookAtDemand
  dsimp only
  generalize ((m.printStand.pump p now).printStand).punchStand = x at hm ⊢
  by_cases hd : x.demand = true
  · simp only [hd, if_true]
    rcases Motor.startEvent_cases p now x.motor with h | ⟨h1, h2⟩
    · exact ⟨_, .inl (by rw [h, hm])⟩
    · exact ⟨_, .inr ⟨hm ▸ h1, by rw [h2, hm]⟩⟩
  · simp only [hd, Bool.false_eq_true, if_false]
    exact ⟨_, .inl (by rw [hm])⟩

end Sys2Proof.Machine
end

