-- ==== Sys2Proof/Laws/State.lean ====
section
/-! SUPPORT. What each shared update of the state leaves and sets, field by field. -/

namespace Sys2Proof.Machine

open Sys2Proof

/-! `at` -/

@[simp] theorem State.at_now (s : State) (t : Ticks) :
    (s.at t).now = max s.now t := rfl
@[simp] theorem State.at_pending (s : State) (t : Ticks) : (s.at t).pending = s.pending := rfl
@[simp] theorem State.at_loader (s : State) (t : Ticks) : (s.at t).loader = s.loader := rfl
@[simp] theorem State.at_receiver (s : State) (t : Ticks) : (s.at t).receiver = s.receiver := rfl
@[simp] theorem State.at_listener (s : State) (t : Ticks) : (s.at t).listener = s.listener := rfl
@[simp] theorem State.at_matcher (s : State) (t : Ticks) : (s.at t).matcher = s.matcher := rfl
@[simp] theorem State.at_keyer (s : State) (t : Ticks) : (s.at t).keyer = s.keyer := rfl
@[simp] theorem State.at_transmitter (s : State) (t : Ticks) : (s.at t).transmitter = s.transmitter := rfl
@[simp] theorem State.at_table (s : State) (t : Ticks) : (s.at t).table = s.table := rfl
@[simp] theorem State.at_store (s : State) (t : Ticks) : (s.at t).store = s.store := rfl
@[simp] theorem State.at_composer (s : State) (t : Ticks) : (s.at t).composer = s.composer := rfl
@[simp] theorem State.at_copier (s : State) (t : Ticks) : (s.at t).copier = s.copier := rfl
@[simp] theorem State.at_keyboard (s : State) (t : Ticks) : (s.at t).keyboard = s.keyboard := rfl
@[simp] theorem State.at_mech (s : State) (t : Ticks) : (s.at t).mech = s.mech := rfl
@[simp] theorem State.at_log (s : State) (t : Ticks) : (s.at t).log = s.log := rfl

/-! `onMech` -/

@[simp] theorem State.onMech_now (s : State) (f : Params → Ticks → Mech → Mech) : (s.onMech f).now = s.now := rfl
@[simp] theorem State.onMech_pending (s : State) (f : Params → Ticks → Mech → Mech) : (s.onMech f).pending = s.pending := rfl
@[simp] theorem State.onMech_loader (s : State) (f : Params → Ticks → Mech → Mech) : (s.onMech f).loader = s.loader := rfl
@[simp] theorem State.onMech_receiver (s : State) (f : Params → Ticks → Mech → Mech) : (s.onMech f).receiver = s.receiver := rfl
@[simp] theorem State.onMech_listener (s : State) (f : Params → Ticks → Mech → Mech) : (s.onMech f).listener = s.listener := rfl
@[simp] theorem State.onMech_matcher (s : State) (f : Params → Ticks → Mech → Mech) : (s.onMech f).matcher = s.matcher := rfl
@[simp] theorem State.onMech_keyer (s : State) (f : Params → Ticks → Mech → Mech) : (s.onMech f).keyer = s.keyer := rfl
@[simp] theorem State.onMech_transmitter (s : State) (f : Params → Ticks → Mech → Mech) : (s.onMech f).transmitter = s.transmitter := rfl
@[simp] theorem State.onMech_table (s : State) (f : Params → Ticks → Mech → Mech) : (s.onMech f).table = s.table := rfl
@[simp] theorem State.onMech_store (s : State) (f : Params → Ticks → Mech → Mech) : (s.onMech f).store = s.store := rfl
@[simp] theorem State.onMech_composer (s : State) (f : Params → Ticks → Mech → Mech) : (s.onMech f).composer = s.composer := rfl
@[simp] theorem State.onMech_copier (s : State) (f : Params → Ticks → Mech → Mech) : (s.onMech f).copier = s.copier := rfl
@[simp] theorem State.onMech_keyboard (s : State) (f : Params → Ticks → Mech → Mech) : (s.onMech f).keyboard = s.keyboard := rfl
@[simp] theorem State.onMech_mech (s : State) (f : Params → Ticks → Mech → Mech) :
    (s.onMech f).mech = f s.loader.params s.now s.mech := rfl
@[simp] theorem State.onMech_log (s : State) (f : Params → Ticks → Mech → Mech) : (s.onMech f).log = s.log := rfl

/-! `settle` -/

@[simp] theorem State.settle_now (s : State) : (s.settle).now = s.now := by
  simp only [State.settle, State.onMech]
@[simp] theorem State.settle_pending (s : State) : (s.settle).pending = s.pending := by
  simp only [State.settle, State.onMech]
@[simp] theorem State.settle_loader (s : State) : (s.settle).loader = s.loader := by
  simp only [State.settle, State.onMech]
@[simp] theorem State.settle_receiver (s : State) : (s.settle).receiver = s.receiver := by
  simp only [State.settle, State.onMech]
@[simp] theorem State.settle_listener (s : State) : (s.settle).listener = s.listener := by
  simp only [State.settle, State.onMech]
@[simp] theorem State.settle_matcher (s : State) : (s.settle).matcher = s.matcher := by
  simp only [State.settle, State.onMech]
@[simp] theorem State.settle_keyer (s : State) : (s.settle).keyer = s.keyer := by
  simp only [State.settle, State.onMech]
@[simp] theorem State.settle_transmitter (s : State) : (s.settle).transmitter = s.transmitter := by
  simp only [State.settle, State.onMech]
@[simp] theorem State.settle_table (s : State) : (s.settle).table = s.table := by
  simp only [State.settle, State.onMech]
@[simp] theorem State.settle_store (s : State) : (s.settle).store = s.store := by
  simp only [State.settle, State.onMech]
@[simp] theorem State.settle_composer (s : State) : (s.settle).composer = s.composer := by
  simp only [State.settle, State.onMech]
@[simp] theorem State.settle_copier (s : State) : (s.settle).copier = s.copier := by
  simp only [State.settle, State.onMech]
@[simp] theorem State.settle_keyboard (s : State) : (s.settle).keyboard = s.keyboard := by
  simp only [State.settle, State.onMech]
@[simp] theorem State.settle_mech (s : State) :
    (s.settle).mech = Mech.settle s.loader.params s.now s.mech := by
  simp only [State.settle, State.onMech]
@[simp] theorem State.settle_log (s : State) : (s.settle).log = s.log := by
  simp only [State.settle, State.onMech]

/-! `ring` -/

@[simp] theorem State.ring_now (s : State) : (s.ring).now = s.now := by
  simp only [State.ring, State.onMech]
@[simp] theorem State.ring_pending (s : State) : (s.ring).pending = s.pending := by
  simp only [State.ring, State.onMech]
@[simp] theorem State.ring_loader (s : State) : (s.ring).loader = s.loader := by
  simp only [State.ring, State.onMech]
@[simp] theorem State.ring_receiver (s : State) : (s.ring).receiver = s.receiver := by
  simp only [State.ring, State.onMech]
@[simp] theorem State.ring_listener (s : State) : (s.ring).listener = s.listener := by
  simp only [State.ring, State.onMech]
@[simp] theorem State.ring_matcher (s : State) : (s.ring).matcher = s.matcher := by
  simp only [State.ring, State.onMech]
@[simp] theorem State.ring_keyer (s : State) : (s.ring).keyer = s.keyer := by
  simp only [State.ring, State.onMech]
@[simp] theorem State.ring_transmitter (s : State) : (s.ring).transmitter = s.transmitter := by
  simp only [State.ring, State.onMech]
@[simp] theorem State.ring_table (s : State) : (s.ring).table = s.table := by
  simp only [State.ring, State.onMech]
@[simp] theorem State.ring_store (s : State) : (s.ring).store = s.store := by
  simp only [State.ring, State.onMech]
@[simp] theorem State.ring_composer (s : State) : (s.ring).composer = s.composer := by
  simp only [State.ring, State.onMech]
@[simp] theorem State.ring_copier (s : State) : (s.ring).copier = s.copier := by
  simp only [State.ring, State.onMech]
@[simp] theorem State.ring_keyboard (s : State) : (s.ring).keyboard = s.keyboard := by
  simp only [State.ring, State.onMech]
@[simp] theorem State.ring_mech (s : State) :
    (s.ring).mech = { s.mech with printer := s.mech.printer.ring s.now } := by
  simp only [State.ring, State.onMech]
@[simp] theorem State.ring_log (s : State) : (s.ring).log = s.log := by
  simp only [State.ring, State.onMech]

/-! `onQueue` -/

@[simp] theorem State.onQueue_now (s : State) (f : CopyQueue → CopyQueue) : (s.onQueue f).now = s.now := by
  simp only [State.onQueue, State.onMech]
@[simp] theorem State.onQueue_pending (s : State) (f : CopyQueue → CopyQueue) : (s.onQueue f).pending = s.pending := by
  simp only [State.onQueue, State.onMech]
@[simp] theorem State.onQueue_loader (s : State) (f : CopyQueue → CopyQueue) : (s.onQueue f).loader = s.loader := by
  simp only [State.onQueue, State.onMech]
@[simp] theorem State.onQueue_receiver (s : State) (f : CopyQueue → CopyQueue) : (s.onQueue f).receiver = s.receiver := by
  simp only [State.onQueue, State.onMech]
@[simp] theorem State.onQueue_listener (s : State) (f : CopyQueue → CopyQueue) : (s.onQueue f).listener = s.listener := by
  simp only [State.onQueue, State.onMech]
@[simp] theorem State.onQueue_matcher (s : State) (f : CopyQueue → CopyQueue) : (s.onQueue f).matcher = s.matcher := by
  simp only [State.onQueue, State.onMech]
@[simp] theorem State.onQueue_keyer (s : State) (f : CopyQueue → CopyQueue) : (s.onQueue f).keyer = s.keyer := by
  simp only [State.onQueue, State.onMech]
@[simp] theorem State.onQueue_transmitter (s : State) (f : CopyQueue → CopyQueue) : (s.onQueue f).transmitter = s.transmitter := by
  simp only [State.onQueue, State.onMech]
@[simp] theorem State.onQueue_table (s : State) (f : CopyQueue → CopyQueue) : (s.onQueue f).table = s.table := by
  simp only [State.onQueue, State.onMech]
@[simp] theorem State.onQueue_store (s : State) (f : CopyQueue → CopyQueue) : (s.onQueue f).store = s.store := by
  simp only [State.onQueue, State.onMech]
@[simp] theorem State.onQueue_composer (s : State) (f : CopyQueue → CopyQueue) : (s.onQueue f).composer = s.composer := by
  simp only [State.onQueue, State.onMech]
@[simp] theorem State.onQueue_copier (s : State) (f : CopyQueue → CopyQueue) : (s.onQueue f).copier = s.copier := by
  simp only [State.onQueue, State.onMech]
@[simp] theorem State.onQueue_keyboard (s : State) (f : CopyQueue → CopyQueue) : (s.onQueue f).keyboard = s.keyboard := by
  simp only [State.onQueue, State.onMech]
@[simp] theorem State.onQueue_mech (s : State) (f : CopyQueue → CopyQueue) :
    (s.onQueue f).mech = { s.mech with queue := f s.mech.queue } := by
  simp only [State.onQueue, State.onMech]
@[simp] theorem State.onQueue_log (s : State) (f : CopyQueue → CopyQueue) : (s.onQueue f).log = s.log := by
  simp only [State.onQueue, State.onMech]

/-! `post` -/

@[simp] theorem State.post_now (s : State) (r : Request) : (s.post r).now = s.now := by
  simp only [State.post, State.onQueue, State.onMech]
@[simp] theorem State.post_pending (s : State) (r : Request) : (s.post r).pending = s.pending := by
  simp only [State.post, State.onQueue, State.onMech]
@[simp] theorem State.post_loader (s : State) (r : Request) : (s.post r).loader = s.loader := by
  simp only [State.post, State.onQueue, State.onMech]
@[simp] theorem State.post_receiver (s : State) (r : Request) : (s.post r).receiver = s.receiver := by
  simp only [State.post, State.onQueue, State.onMech]
@[simp] theorem State.post_listener (s : State) (r : Request) : (s.post r).listener = s.listener := by
  simp only [State.post, State.onQueue, State.onMech]
@[simp] theorem State.post_matcher (s : State) (r : Request) : (s.post r).matcher = s.matcher := by
  simp only [State.post, State.onQueue, State.onMech]
@[simp] theorem State.post_keyer (s : State) (r : Request) : (s.post r).keyer = s.keyer := by
  simp only [State.post, State.onQueue, State.onMech]
@[simp] theorem State.post_transmitter (s : State) (r : Request) : (s.post r).transmitter = s.transmitter := by
  simp only [State.post, State.onQueue, State.onMech]
@[simp] theorem State.post_table (s : State) (r : Request) : (s.post r).table = s.table := by
  simp only [State.post, State.onQueue, State.onMech]
@[simp] theorem State.post_store (s : State) (r : Request) : (s.post r).store = s.store := by
  simp only [State.post, State.onQueue, State.onMech]
@[simp] theorem State.post_composer (s : State) (r : Request) : (s.post r).composer = s.composer := by
  simp only [State.post, State.onQueue, State.onMech]
@[simp] theorem State.post_copier (s : State) (r : Request) : (s.post r).copier = s.copier := by
  simp only [State.post, State.onQueue, State.onMech]
@[simp] theorem State.post_keyboard (s : State) (r : Request) : (s.post r).keyboard = s.keyboard := by
  simp only [State.post, State.onQueue, State.onMech]
@[simp] theorem State.post_mech (s : State) (r : Request) :
    (s.post r).mech = { s.mech with queue := s.mech.queue.post r } := by
  simp only [State.post, State.onQueue, State.onMech]
@[simp] theorem State.post_log (s : State) (r : Request) : (s.post r).log = s.log := by
  simp only [State.post, State.onQueue, State.onMech]

/-! `write` -/

@[simp] theorem State.write_now (s : State) (e : Entry) : (s.write e).now = s.now := by
  simp only [State.write, State.onMech]
@[simp] theorem State.write_pending (s : State) (e : Entry) : (s.write e).pending = s.pending := by
  simp only [State.write, State.onMech]
@[simp] theorem State.write_loader (s : State) (e : Entry) : (s.write e).loader = s.loader := by
  simp only [State.write, State.onMech]
@[simp] theorem State.write_receiver (s : State) (e : Entry) : (s.write e).receiver = s.receiver := by
  simp only [State.write, State.onMech]
@[simp] theorem State.write_listener (s : State) (e : Entry) : (s.write e).listener = s.listener := by
  simp only [State.write, State.onMech]
@[simp] theorem State.write_matcher (s : State) (e : Entry) : (s.write e).matcher = s.matcher := by
  simp only [State.write, State.onMech]
@[simp] theorem State.write_keyer (s : State) (e : Entry) : (s.write e).keyer = s.keyer := by
  simp only [State.write, State.onMech]
@[simp] theorem State.write_transmitter (s : State) (e : Entry) : (s.write e).transmitter = s.transmitter := by
  simp only [State.write, State.onMech]
@[simp] theorem State.write_table (s : State) (e : Entry) : (s.write e).table = s.table := by
  simp only [State.write, State.onMech]
@[simp] theorem State.write_store (s : State) (e : Entry) : (s.write e).store = s.store := by
  simp only [State.write, State.onMech]
@[simp] theorem State.write_composer (s : State) (e : Entry) : (s.write e).composer = s.composer := by
  simp only [State.write, State.onMech]
@[simp] theorem State.write_copier (s : State) (e : Entry) : (s.write e).copier = s.copier := by
  simp only [State.write, State.onMech]
@[simp] theorem State.write_keyboard (s : State) (e : Entry) : (s.write e).keyboard = s.keyboard := by
  simp only [State.write, State.onMech]
@[simp] theorem State.write_mech (s : State) (e : Entry) :
    (s.write e).mech = s.mech.write s.loader.params s.now e := by
  simp only [State.write, State.onMech]
@[simp] theorem State.write_log (s : State) (e : Entry) : (s.write e).log = s.log := by
  simp only [State.write, State.onMech]

/-! `writeAll` -/

@[simp] theorem State.writeAll_now (s : State) (es : List Entry) : (s.writeAll es).now = s.now := by
  simp only [State.writeAll, State.onMech]
@[simp] theorem State.writeAll_pending (s : State) (es : List Entry) : (s.writeAll es).pending = s.pending := by
  simp only [State.writeAll, State.onMech]
@[simp] theorem State.writeAll_loader (s : State) (es : List Entry) : (s.writeAll es).loader = s.loader := by
  simp only [State.writeAll, State.onMech]
@[simp] theorem State.writeAll_receiver (s : State) (es : List Entry) : (s.writeAll es).receiver = s.receiver := by
  simp only [State.writeAll, State.onMech]
@[simp] theorem State.writeAll_listener (s : State) (es : List Entry) : (s.writeAll es).listener = s.listener := by
  simp only [State.writeAll, State.onMech]
@[simp] theorem State.writeAll_matcher (s : State) (es : List Entry) : (s.writeAll es).matcher = s.matcher := by
  simp only [State.writeAll, State.onMech]
@[simp] theorem State.writeAll_keyer (s : State) (es : List Entry) : (s.writeAll es).keyer = s.keyer := by
  simp only [State.writeAll, State.onMech]
@[simp] theorem State.writeAll_transmitter (s : State) (es : List Entry) : (s.writeAll es).transmitter = s.transmitter := by
  simp only [State.writeAll, State.onMech]
@[simp] theorem State.writeAll_table (s : State) (es : List Entry) : (s.writeAll es).table = s.table := by
  simp only [State.writeAll, State.onMech]
@[simp] theorem State.writeAll_store (s : State) (es : List Entry) : (s.writeAll es).store = s.store := by
  simp only [State.writeAll, State.onMech]
@[simp] theorem State.writeAll_composer (s : State) (es : List Entry) : (s.writeAll es).composer = s.composer := by
  simp only [State.writeAll, State.onMech]
@[simp] theorem State.writeAll_copier (s : State) (es : List Entry) : (s.writeAll es).copier = s.copier := by
  simp only [State.writeAll, State.onMech]
@[simp] theorem State.writeAll_keyboard (s : State) (es : List Entry) : (s.writeAll es).keyboard = s.keyboard := by
  simp only [State.writeAll, State.onMech]
@[simp] theorem State.writeAll_mech (s : State) (es : List Entry) :
    (s.writeAll es).mech = s.mech.writeAll s.loader.params s.now es := by
  simp only [State.writeAll, State.onMech]
@[simp] theorem State.writeAll_log (s : State) (es : List Entry) : (s.writeAll es).log = s.log := by
  simp only [State.writeAll, State.onMech]

/-! `onListener` -/

@[simp] theorem State.onListener_now (s : State) (f : Listener → Listener) : (s.onListener f).now = s.now := rfl
@[simp] theorem State.onListener_pending (s : State) (f : Listener → Listener) : (s.onListener f).pending = s.pending := rfl
@[simp] theorem State.onListener_loader (s : State) (f : Listener → Listener) : (s.onListener f).loader = s.loader := rfl
@[simp] theorem State.onListener_receiver (s : State) (f : Listener → Listener) : (s.onListener f).receiver = s.receiver := rfl
@[simp] theorem State.onListener_listener (s : State) (f : Listener → Listener) :
    (s.onListener f).listener = f s.listener := rfl
@[simp] theorem State.onListener_matcher (s : State) (f : Listener → Listener) : (s.onListener f).matcher = s.matcher := rfl
@[simp] theorem State.onListener_keyer (s : State) (f : Listener → Listener) : (s.onListener f).keyer = s.keyer := rfl
@[simp] theorem State.onListener_transmitter (s : State) (f : Listener → Listener) : (s.onListener f).transmitter = s.transmitter := rfl
@[simp] theorem State.onListener_table (s : State) (f : Listener → Listener) : (s.onListener f).table = s.table := rfl
@[simp] theorem State.onListener_store (s : State) (f : Listener → Listener) : (s.onListener f).store = s.store := rfl
@[simp] theorem State.onListener_composer (s : State) (f : Listener → Listener) : (s.onListener f).composer = s.composer := rfl
@[simp] theorem State.onListener_copier (s : State) (f : Listener → Listener) : (s.onListener f).copier = s.copier := rfl
@[simp] theorem State.onListener_keyboard (s : State) (f : Listener → Listener) : (s.onListener f).keyboard = s.keyboard := rfl
@[simp] theorem State.onListener_mech (s : State) (f : Listener → Listener) : (s.onListener f).mech = s.mech := rfl
@[simp] theorem State.onListener_log (s : State) (f : Listener → Listener) : (s.onListener f).log = s.log := rfl

/-! `countError` -/

@[simp] theorem State.countError_now (s : State) : (s.countError).now = s.now := rfl
@[simp] theorem State.countError_pending (s : State) : (s.countError).pending = s.pending := rfl
@[simp] theorem State.countError_loader (s : State) : (s.countError).loader = s.loader := rfl
@[simp] theorem State.countError_receiver (s : State) : (s.countError).receiver = s.receiver := rfl
@[simp] theorem State.countError_listener (s : State) :
    (s.countError).listener = s.listener.countError s.loader.params.errorThreshold := rfl
@[simp] theorem State.countError_matcher (s : State) : (s.countError).matcher = s.matcher := rfl
@[simp] theorem State.countError_keyer (s : State) : (s.countError).keyer = s.keyer := rfl
@[simp] theorem State.countError_transmitter (s : State) : (s.countError).transmitter = s.transmitter := rfl
@[simp] theorem State.countError_table (s : State) : (s.countError).table = s.table := rfl
@[simp] theorem State.countError_store (s : State) : (s.countError).store = s.store := rfl
@[simp] theorem State.countError_composer (s : State) : (s.countError).composer = s.composer := rfl
@[simp] theorem State.countError_copier (s : State) : (s.countError).copier = s.copier := rfl
@[simp] theorem State.countError_keyboard (s : State) : (s.countError).keyboard = s.keyboard := rfl
@[simp] theorem State.countError_mech (s : State) : (s.countError).mech = s.mech := rfl
@[simp] theorem State.countError_log (s : State) : (s.countError).log = s.log := rfl

/-! `onIncoming` -/

@[simp] theorem State.onIncoming_now (s : State) (f : Incoming → Incoming) : (s.onIncoming f).now = s.now := rfl
@[simp] theorem State.onIncoming_pending (s : State) (f : Incoming → Incoming) : (s.onIncoming f).pending = s.pending := rfl
@[simp] theorem State.onIncoming_loader (s : State) (f : Incoming → Incoming) : (s.onIncoming f).loader = s.loader := rfl
@[simp] theorem State.onIncoming_receiver (s : State) (f : Incoming → Incoming) : (s.onIncoming f).receiver = s.receiver := rfl
@[simp] theorem State.onIncoming_listener (s : State) (f : Incoming → Incoming) : (s.onIncoming f).listener = s.listener := rfl
@[simp] theorem State.onIncoming_matcher (s : State) (f : Incoming → Incoming) :
    (s.onIncoming f).matcher = { s.matcher with incoming := s.matcher.incoming.map f } := rfl
@[simp] theorem State.onIncoming_keyer (s : State) (f : Incoming → Incoming) : (s.onIncoming f).keyer = s.keyer := rfl
@[simp] theorem State.onIncoming_transmitter (s : State) (f : Incoming → Incoming) : (s.onIncoming f).transmitter = s.transmitter := rfl
@[simp] theorem State.onIncoming_table (s : State) (f : Incoming → Incoming) : (s.onIncoming f).table = s.table := rfl
@[simp] theorem State.onIncoming_store (s : State) (f : Incoming → Incoming) : (s.onIncoming f).store = s.store := rfl
@[simp] theorem State.onIncoming_composer (s : State) (f : Incoming → Incoming) : (s.onIncoming f).composer = s.composer := rfl
@[simp] theorem State.onIncoming_copier (s : State) (f : Incoming → Incoming) : (s.onIncoming f).copier = s.copier := rfl
@[simp] theorem State.onIncoming_keyboard (s : State) (f : Incoming → Incoming) : (s.onIncoming f).keyboard = s.keyboard := rfl
@[simp] theorem State.onIncoming_mech (s : State) (f : Incoming → Incoming) : (s.onIncoming f).mech = s.mech := rfl
@[simp] theorem State.onIncoming_log (s : State) (f : Incoming → Incoming) : (s.onIncoming f).log = s.log := rfl

/-! `onActive` -/

@[simp] theorem State.onActive_now (s : State) (f : Message → Message) : (s.onActive f).now = s.now := rfl
@[simp] theorem State.onActive_pending (s : State) (f : Message → Message) : (s.onActive f).pending = s.pending := rfl
@[simp] theorem State.onActive_loader (s : State) (f : Message → Message) : (s.onActive f).loader = s.loader := rfl
@[simp] theorem State.onActive_receiver (s : State) (f : Message → Message) : (s.onActive f).receiver = s.receiver := rfl
@[simp] theorem State.onActive_listener (s : State) (f : Message → Message) : (s.onActive f).listener = s.listener := rfl
@[simp] theorem State.onActive_matcher (s : State) (f : Message → Message) : (s.onActive f).matcher = s.matcher := rfl
@[simp] theorem State.onActive_keyer (s : State) (f : Message → Message) : (s.onActive f).keyer = s.keyer := rfl
@[simp] theorem State.onActive_transmitter (s : State) (f : Message → Message) : (s.onActive f).transmitter = s.transmitter := rfl
@[simp] theorem State.onActive_table (s : State) (f : Message → Message) :
    (s.onActive f).table = onFirst OutRecord.isActive (OutRecord.withMessage f) s.table := rfl
@[simp] theorem State.onActive_store (s : State) (f : Message → Message) : (s.onActive f).store = s.store := rfl
@[simp] theorem State.onActive_composer (s : State) (f : Message → Message) : (s.onActive f).composer = s.composer := rfl
@[simp] theorem State.onActive_copier (s : State) (f : Message → Message) : (s.onActive f).copier = s.copier := rfl
@[simp] theorem State.onActive_keyboard (s : State) (f : Message → Message) : (s.onActive f).keyboard = s.keyboard := rfl
@[simp] theorem State.onActive_mech (s : State) (f : Message → Message) : (s.onActive f).mech = s.mech := rfl
@[simp] theorem State.onActive_log (s : State) (f : Message → Message) : (s.onActive f).log = s.log := rfl

/-! `onComposing` -/

@[simp] theorem State.onComposing_now (s : State) (f : Message → Message) : (s.onComposing f).now = s.now := rfl
@[simp] theorem State.onComposing_pending (s : State) (f : Message → Message) : (s.onComposing f).pending = s.pending := rfl
@[simp] theorem State.onComposing_loader (s : State) (f : Message → Message) : (s.onComposing f).loader = s.loader := rfl
@[simp] theorem State.onComposing_receiver (s : State) (f : Message → Message) : (s.onComposing f).receiver = s.receiver := rfl
@[simp] theorem State.onComposing_listener (s : State) (f : Message → Message) : (s.onComposing f).listener = s.listener := rfl
@[simp] theorem State.onComposing_matcher (s : State) (f : Message → Message) : (s.onComposing f).matcher = s.matcher := rfl
@[simp] theorem State.onComposing_keyer (s : State) (f : Message → Message) : (s.onComposing f).keyer = s.keyer := rfl
@[simp] theorem State.onComposing_transmitter (s : State) (f : Message → Message) : (s.onComposing f).transmitter = s.transmitter := rfl
@[simp] theorem State.onComposing_table (s : State) (f : Message → Message) :
    (s.onComposing f).table = onLast (OutRecord.withMessage f) s.table := rfl
@[simp] theorem State.onComposing_store (s : State) (f : Message → Message) : (s.onComposing f).store = s.store := rfl
@[simp] theorem State.onComposing_composer (s : State) (f : Message → Message) : (s.onComposing f).composer = s.composer := rfl
@[simp] theorem State.onComposing_copier (s : State) (f : Message → Message) : (s.onComposing f).copier = s.copier := rfl
@[simp] theorem State.onComposing_keyboard (s : State) (f : Message → Message) : (s.onComposing f).keyboard = s.keyboard := rfl
@[simp] theorem State.onComposing_mech (s : State) (f : Message → Message) : (s.onComposing f).mech = s.mech := rfl
@[simp] theorem State.onComposing_log (s : State) (f : Message → Message) : (s.onComposing f).log = s.log := rfl

/-! `contendAgain` -/

@[simp] theorem State.contendAgain_now (s : State) (f : Message → Message) : (s.contendAgain f).now = s.now := rfl
@[simp] theorem State.contendAgain_pending (s : State) (f : Message → Message) : (s.contendAgain f).pending = s.pending := rfl
@[simp] theorem State.contendAgain_loader (s : State) (f : Message → Message) : (s.contendAgain f).loader = s.loader := rfl
@[simp] theorem State.contendAgain_receiver (s : State) (f : Message → Message) : (s.contendAgain f).receiver = s.receiver := rfl
@[simp] theorem State.contendAgain_listener (s : State) (f : Message → Message) : (s.contendAgain f).listener = s.listener := rfl
@[simp] theorem State.contendAgain_matcher (s : State) (f : Message → Message) : (s.contendAgain f).matcher = s.matcher := rfl
@[simp] theorem State.contendAgain_keyer (s : State) (f : Message → Message) : (s.contendAgain f).keyer = s.keyer := rfl
@[simp] theorem State.contendAgain_transmitter (s : State) (f : Message → Message) :
    (s.contendAgain f).transmitter = { s.transmitter with attempt := none, heard := [] } := rfl
@[simp] theorem State.contendAgain_store (s : State) (f : Message → Message) : (s.contendAgain f).store = s.store := rfl
@[simp] theorem State.contendAgain_composer (s : State) (f : Message → Message) : (s.contendAgain f).composer = s.composer := rfl
@[simp] theorem State.contendAgain_copier (s : State) (f : Message → Message) : (s.contendAgain f).copier = s.copier := rfl
@[simp] theorem State.contendAgain_keyboard (s : State) (f : Message → Message) : (s.contendAgain f).keyboard = s.keyboard := rfl
@[simp] theorem State.contendAgain_mech (s : State) (f : Message → Message) : (s.contendAgain f).mech = s.mech := rfl
@[simp] theorem State.contendAgain_log (s : State) (f : Message → Message) : (s.contendAgain f).log = s.log := rfl

/-! `storeChars` -/

@[simp] theorem State.storeChars_now (s : State) (cs : List Code) : (s.storeChars cs).now = s.now := rfl
@[simp] theorem State.storeChars_pending (s : State) (cs : List Code) : (s.storeChars cs).pending = s.pending := rfl
@[simp] theorem State.storeChars_loader (s : State) (cs : List Code) : (s.storeChars cs).loader = s.loader := rfl
@[simp] theorem State.storeChars_receiver (s : State) (cs : List Code) : (s.storeChars cs).receiver = s.receiver := rfl
@[simp] theorem State.storeChars_listener (s : State) (cs : List Code) : (s.storeChars cs).listener = s.listener := rfl
@[simp] theorem State.storeChars_matcher (s : State) (cs : List Code) : (s.storeChars cs).matcher = s.matcher := rfl
@[simp] theorem State.storeChars_keyer (s : State) (cs : List Code) : (s.storeChars cs).keyer = s.keyer := rfl
@[simp] theorem State.storeChars_transmitter (s : State) (cs : List Code) : (s.storeChars cs).transmitter = s.transmitter := rfl
@[simp] theorem State.storeChars_store (s : State) (cs : List Code) :
    (s.storeChars cs).store = { s.store with chars := s.store.chars ++ cs } := rfl
@[simp] theorem State.storeChars_composer (s : State) (cs : List Code) : (s.storeChars cs).composer = s.composer := rfl
@[simp] theorem State.storeChars_copier (s : State) (cs : List Code) : (s.storeChars cs).copier = s.copier := rfl
@[simp] theorem State.storeChars_keyboard (s : State) (cs : List Code) : (s.storeChars cs).keyboard = s.keyboard := rfl
@[simp] theorem State.storeChars_mech (s : State) (cs : List Code) : (s.storeChars cs).mech = s.mech := rfl
@[simp] theorem State.storeChars_log (s : State) (cs : List Code) : (s.storeChars cs).log = s.log := rfl

/-! `takeAction` -/

@[simp] theorem State.takeAction_now (s : State) (a : StoreAction) : (s.takeAction a).now = s.now := rfl
@[simp] theorem State.takeAction_pending (s : State) (a : StoreAction) : (s.takeAction a).pending = s.pending := rfl
@[simp] theorem State.takeAction_loader (s : State) (a : StoreAction) : (s.takeAction a).loader = s.loader := rfl
@[simp] theorem State.takeAction_receiver (s : State) (a : StoreAction) : (s.takeAction a).receiver = s.receiver := rfl
@[simp] theorem State.takeAction_listener (s : State) (a : StoreAction) : (s.takeAction a).listener = s.listener := rfl
@[simp] theorem State.takeAction_matcher (s : State) (a : StoreAction) : (s.takeAction a).matcher = s.matcher := rfl
@[simp] theorem State.takeAction_keyer (s : State) (a : StoreAction) : (s.takeAction a).keyer = s.keyer := rfl
@[simp] theorem State.takeAction_transmitter (s : State) (a : StoreAction) : (s.takeAction a).transmitter = s.transmitter := rfl
@[simp] theorem State.takeAction_store (s : State) (a : StoreAction) :
    (s.takeAction a).store = { s.store with chars := s.store.chars ++ a.chars } := rfl
@[simp] theorem State.takeAction_composer (s : State) (a : StoreAction) :
    (s.takeAction a).composer = { s.composer with sendCase := a.after } := rfl
@[simp] theorem State.takeAction_copier (s : State) (a : StoreAction) : (s.takeAction a).copier = s.copier := rfl
@[simp] theorem State.takeAction_keyboard (s : State) (a : StoreAction) : (s.takeAction a).keyboard = s.keyboard := rfl
@[simp] theorem State.takeAction_mech (s : State) (a : StoreAction) : (s.takeAction a).mech = s.mech := rfl
@[simp] theorem State.takeAction_log (s : State) (a : StoreAction) : (s.takeAction a).log = s.log := rfl

/-! `makeRecord` -/

@[simp] theorem State.makeRecord_now (s : State) (b : RecordBody) : (s.makeRecord b).now = s.now := rfl
@[simp] theorem State.makeRecord_pending (s : State) (b : RecordBody) : (s.makeRecord b).pending = s.pending := rfl
@[simp] theorem State.makeRecord_loader (s : State) (b : RecordBody) : (s.makeRecord b).loader = s.loader := rfl
@[simp] theorem State.makeRecord_receiver (s : State) (b : RecordBody) : (s.makeRecord b).receiver = s.receiver := rfl
@[simp] theorem State.makeRecord_listener (s : State) (b : RecordBody) : (s.makeRecord b).listener = s.listener := rfl
@[simp] theorem State.makeRecord_matcher (s : State) (b : RecordBody) : (s.makeRecord b).matcher = s.matcher := rfl
@[simp] theorem State.makeRecord_keyer (s : State) (b : RecordBody) : (s.makeRecord b).keyer = s.keyer := rfl
@[simp] theorem State.makeRecord_transmitter (s : State) (b : RecordBody) : (s.makeRecord b).transmitter = s.transmitter := rfl
@[simp] theorem State.makeRecord_store (s : State) (b : RecordBody) : (s.makeRecord b).store = s.store := rfl
@[simp] theorem State.makeRecord_composer (s : State) (b : RecordBody) : (s.makeRecord b).composer = s.composer := rfl
@[simp] theorem State.makeRecord_copier (s : State) (b : RecordBody) : (s.makeRecord b).copier = s.copier := rfl
@[simp] theorem State.makeRecord_keyboard (s : State) (b : RecordBody) : (s.makeRecord b).keyboard = s.keyboard := rfl
@[simp] theorem State.makeRecord_mech (s : State) (b : RecordBody) : (s.makeRecord b).mech = s.mech := rfl
@[simp] theorem State.makeRecord_log (s : State) (b : RecordBody) : (s.makeRecord b).log = s.log := rfl

/-! `giveBack` -/

@[simp] theorem State.giveBack_now (s : State) : (s.giveBack).now = s.now := rfl
@[simp] theorem State.giveBack_pending (s : State) : (s.giveBack).pending = s.pending := rfl
@[simp] theorem State.giveBack_loader (s : State) : (s.giveBack).loader = s.loader := rfl
@[simp] theorem State.giveBack_receiver (s : State) : (s.giveBack).receiver = s.receiver := rfl
@[simp] theorem State.giveBack_listener (s : State) : (s.giveBack).listener = s.listener := rfl
@[simp] theorem State.giveBack_matcher (s : State) : (s.giveBack).matcher = s.matcher := rfl
@[simp] theorem State.giveBack_keyer (s : State) : (s.giveBack).keyer = s.keyer := rfl
@[simp] theorem State.giveBack_transmitter (s : State) : (s.giveBack).transmitter = s.transmitter := rfl
@[simp] theorem State.giveBack_composer (s : State) : (s.giveBack).composer = s.composer := rfl
@[simp] theorem State.giveBack_copier (s : State) : (s.giveBack).copier = s.copier := rfl
@[simp] theorem State.giveBack_keyboard (s : State) : (s.giveBack).keyboard = s.keyboard := rfl
@[simp] theorem State.giveBack_mech (s : State) : (s.giveBack).mech = s.mech := rfl
@[simp] theorem State.giveBack_log (s : State) : (s.giveBack).log = s.log := rfl

/-! `toLocal` -/

@[simp] theorem State.toLocal_now (s : State) : (s.toLocal).now = s.now := rfl
@[simp] theorem State.toLocal_pending (s : State) : (s.toLocal).pending = s.pending := rfl
@[simp] theorem State.toLocal_loader (s : State) : (s.toLocal).loader = s.loader := rfl
@[simp] theorem State.toLocal_receiver (s : State) : (s.toLocal).receiver = s.receiver := rfl
@[simp] theorem State.toLocal_listener (s : State) : (s.toLocal).listener = s.listener := rfl
@[simp] theorem State.toLocal_matcher (s : State) : (s.toLocal).matcher = s.matcher := rfl
@[simp] theorem State.toLocal_keyer (s : State) : (s.toLocal).keyer = s.keyer := rfl
@[simp] theorem State.toLocal_transmitter (s : State) : (s.toLocal).transmitter = s.transmitter := rfl
@[simp] theorem State.toLocal_table (s : State) : (s.toLocal).table = s.table := rfl
@[simp] theorem State.toLocal_store (s : State) : (s.toLocal).store = s.store := rfl
@[simp] theorem State.toLocal_copier (s : State) : (s.toLocal).copier = s.copier := rfl
@[simp] theorem State.toLocal_keyboard (s : State) : (s.toLocal).keyboard = s.keyboard := rfl
@[simp] theorem State.toLocal_mech (s : State) : (s.toLocal).mech = s.mech := rfl
@[simp] theorem State.toLocal_log (s : State) : (s.toLocal).log = s.log := rfl

/-! `kindToText` -/

@[simp] theorem State.kindToText_now (s : State) : (s.kindToText).now = s.now := rfl
@[simp] theorem State.kindToText_pending (s : State) : (s.kindToText).pending = s.pending := rfl
@[simp] theorem State.kindToText_loader (s : State) : (s.kindToText).loader = s.loader := rfl
@[simp] theorem State.kindToText_receiver (s : State) : (s.kindToText).receiver = s.receiver := rfl
@[simp] theorem State.kindToText_listener (s : State) : (s.kindToText).listener = s.listener := rfl
@[simp] theorem State.kindToText_matcher (s : State) : (s.kindToText).matcher = s.matcher := rfl
@[simp] theorem State.kindToText_keyer (s : State) : (s.kindToText).keyer = s.keyer := rfl
@[simp] theorem State.kindToText_transmitter (s : State) : (s.kindToText).transmitter = s.transmitter := rfl
@[simp] theorem State.kindToText_store (s : State) : (s.kindToText).store = s.store := rfl
@[simp] theorem State.kindToText_composer (s : State) :
    (s.kindToText).composer = { s.composer with state := .text } := rfl
@[simp] theorem State.kindToText_copier (s : State) : (s.kindToText).copier = s.copier := rfl
@[simp] theorem State.kindToText_keyboard (s : State) : (s.kindToText).keyboard = s.keyboard := rfl
@[simp] theorem State.kindToText_mech (s : State) : (s.kindToText).mech = s.mech := rfl
@[simp] theorem State.kindToText_log (s : State) : (s.kindToText).log = s.log := rfl

/-! `beginAttempt` -/

@[simp] theorem State.beginAttempt_now (s : State) : (s.beginAttempt).now = s.now := rfl
@[simp] theorem State.beginAttempt_pending (s : State) : (s.beginAttempt).pending = s.pending := rfl
@[simp] theorem State.beginAttempt_loader (s : State) : (s.beginAttempt).loader = s.loader := rfl
@[simp] theorem State.beginAttempt_receiver (s : State) : (s.beginAttempt).receiver = s.receiver := rfl
@[simp] theorem State.beginAttempt_listener (s : State) : (s.beginAttempt).listener = s.listener := rfl
@[simp] theorem State.beginAttempt_matcher (s : State) : (s.beginAttempt).matcher = s.matcher := rfl
@[simp] theorem State.beginAttempt_store (s : State) : (s.beginAttempt).store = s.store := rfl
@[simp] theorem State.beginAttempt_composer (s : State) : (s.beginAttempt).composer = s.composer := rfl
@[simp] theorem State.beginAttempt_copier (s : State) : (s.beginAttempt).copier = s.copier := rfl
@[simp] theorem State.beginAttempt_keyboard (s : State) : (s.beginAttempt).keyboard = s.keyboard := rfl
@[simp] theorem State.beginAttempt_mech (s : State) : (s.beginAttempt).mech = s.mech := rfl
@[simp] theorem State.beginAttempt_log (s : State) : (s.beginAttempt).log = s.log := rfl

/-! `mechAfter` -/

@[simp] theorem State.mechAfter_now (s : State) (t : Ticks) (m : Mech) :
    (s.mechAfter t m).now = max s.now t := by
  simp only [State.mechAfter]
@[simp] theorem State.mechAfter_pending (s : State) (t : Ticks) (m : Mech) : (s.mechAfter t m).pending = s.pending := by
  simp only [State.mechAfter]
@[simp] theorem State.mechAfter_loader (s : State) (t : Ticks) (m : Mech) : (s.mechAfter t m).loader = s.loader := by
  simp only [State.mechAfter]
@[simp] theorem State.mechAfter_receiver (s : State) (t : Ticks) (m : Mech) : (s.mechAfter t m).receiver = s.receiver := by
  simp only [State.mechAfter]
@[simp] theorem State.mechAfter_listener (s : State) (t : Ticks) (m : Mech) : (s.mechAfter t m).listener = s.listener := by
  simp only [State.mechAfter]
@[simp] theorem State.mechAfter_matcher (s : State) (t : Ticks) (m : Mech) : (s.mechAfter t m).matcher = s.matcher := by
  simp only [State.mechAfter]
@[simp] theorem State.mechAfter_keyer (s : State) (t : Ticks) (m : Mech) : (s.mechAfter t m).keyer = s.keyer := by
  simp only [State.mechAfter]
@[simp] theorem State.mechAfter_transmitter (s : State) (t : Ticks) (m : Mech) : (s.mechAfter t m).transmitter = s.transmitter := by
  simp only [State.mechAfter]
@[simp] theorem State.mechAfter_table (s : State) (t : Ticks) (m : Mech) : (s.mechAfter t m).table = s.table := by
  simp only [State.mechAfter]
@[simp] theorem State.mechAfter_store (s : State) (t : Ticks) (m : Mech) : (s.mechAfter t m).store = s.store := by
  simp only [State.mechAfter]
@[simp] theorem State.mechAfter_composer (s : State) (t : Ticks) (m : Mech) : (s.mechAfter t m).composer = s.composer := by
  simp only [State.mechAfter]
@[simp] theorem State.mechAfter_copier (s : State) (t : Ticks) (m : Mech) : (s.mechAfter t m).copier = s.copier := by
  simp only [State.mechAfter]
@[simp] theorem State.mechAfter_keyboard (s : State) (t : Ticks) (m : Mech) : (s.mechAfter t m).keyboard = s.keyboard := by
  simp only [State.mechAfter]
@[simp] theorem State.mechAfter_mech (s : State) (t : Ticks) (m : Mech) :
    (s.mechAfter t m).mech = m.settle s.loader.params (max s.now t) := by
  simp only [State.mechAfter]
@[simp] theorem State.mechAfter_log (s : State) (t : Ticks) (m : Mech) : (s.mechAfter t m).log = s.log := by
  simp only [State.mechAfter]

end Sys2Proof.Machine
end

