-- ==== Sys2Proof/Laws/Frames.lean ====
section
/-! SUPPORT. What the shared operations over the whole state change: each lemma gives the state after
the operation as the state before it with the parts named, and only those, replaced. -/

namespace Sys2Proof.Machine

open Sys2Proof

/-! ### Operations on the mechanism alone -/

/-- `t` is `s` but for the mechanism. -/
def OnlyMech (s t : State) : Prop := ∃ m, t = { s with mech := m }

theorem OnlyMech.refl (s : State) : OnlyMech s s := ⟨s.mech, rfl⟩

theorem OnlyMech.trans {s t u : State} (h : OnlyMech s t) (g : OnlyMech t u) : OnlyMech s u := by
  obtain ⟨m, rfl⟩ := h
  obtain ⟨n, rfl⟩ := g
  exact ⟨n, rfl⟩

theorem State.onMech_only (s : State) (f : Params → Ticks → Mech → Mech) : OnlyMech s (s.onMech f) :=
  ⟨_, rfl⟩

theorem State.settle_only (s : State) : OnlyMech s s.settle := ⟨_, rfl⟩
theorem State.ring_only (s : State) : OnlyMech s s.ring := ⟨_, rfl⟩
theorem State.write_only (s : State) (e : Entry) : OnlyMech s (s.write e) := ⟨_, rfl⟩
theorem State.writeAll_only (s : State) (es : List Entry) : OnlyMech s (s.writeAll es) := ⟨_, rfl⟩
theorem State.onQueue_only (s : State) (f : CopyQueue → CopyQueue) : OnlyMech s (s.onQueue f) := ⟨_, rfl⟩
theorem State.post_only (s : State) (r : Request) : OnlyMech s (s.post r) := ⟨_, rfl⟩

theorem State.closeLocalRun_only (s : State) : OnlyMech s s.closeLocalRun := by
  unfold State.closeLocalRun
  split
  · exact OnlyMech.refl s
  · exact ⟨_, rfl⟩
  · exact ⟨_, rfl⟩

theorem State.suspendLocalRun_only (s : State) : OnlyMech s s.suspendLocalRun := by
  unfold State.suspendLocalRun
  split
  · exact ⟨_, rfl⟩
  · exact OnlyMech.refl s

theorem State.testNotice_only (s : State) : OnlyMech s s.testNotice := by
  unfold State.testNotice
  dsimp only
  split
  · exact OnlyMech.refl s
  · split
    · exact ⟨_, rfl⟩
    · split
      · exact ⟨_, rfl⟩
      · split
        · exact ⟨_, rfl⟩
        · split
          · exact (State.suspendLocalRun_only s).trans
              ((State.writeAll_only _ _).trans (State.onQueue_only _ _))
          · exact ⟨_, rfl⟩

theorem State.offer_only {s t : State} {c : Code} (h : s.offer c = some t) : OnlyMech s t := by
  unfold State.offer at h
  dsimp only at h
  split at h
  · cases h
  · split at h
    · split at h
      · cases h; exact ⟨_, rfl⟩
      · cases h
    · split at h
      · cases h; exact ⟨_, rfl⟩
      · cases h

/-- An event at the mechanism leaves the clock at the event, the mechanism settled, and nothing else
changed. -/
theorem State.settled_eq_mechAfter (s : State) (t : Ticks) (f : Params → Ticks → Mech → Mech) :
    ((s.at t).onMech f).settle = s.mechAfter t (f s.loader.params (max s.now t) s.mech) := rfl

/-! ### The local copier and the outgoing table -/

/-- Completing copies touches the mechanism, the table, the store and the copier only (R144,
R155). -/
theorem State.completeCopies_frame (n : Nat) (s : State) :
    ∃ m tb st k, s.completeCopies n =
      { s with mech := m, table := tb, store := st, copier := k } := by
  induction n generalizing s with
  | zero => exact ⟨_, _, _, _, rfl⟩
  | succ n ih =>
    unfold State.completeCopies
    split
    · exact ⟨_, _, _, _, rfl⟩
    · split
      · obtain ⟨x, hx⟩ := State.closeLocalRun_only s
        dsimp only
        rw [hx]
        obtain ⟨m, tb, st, k, h⟩ := ih (State.giveBack
          { ({ s with mech := x } : State) with
            table := onFirst (fun r => !r.copied) (fun r => { r with copied := true })
              ({ s with mech := x } : State).table
            copier := Copier.reset })
        exact ⟨m, tb, st, k, h⟩
      · exact ⟨_, _, _, _, rfl⟩

theorem State.copierLooks_frame (s : State) :
    ∃ m tb st k, s.copierLooks =
      { s with mech := m, table := tb, store := st, copier := k } :=
  State.completeCopies_frame _ s

theorem State.copierWrites_frame (s : State) :
    ∃ m tb st k, s.copierWrites =
      { s with mech := m, table := tb, store := st, copier := k } := by
  unfold State.copierWrites
  split
  · exact ⟨_, _, _, _, rfl⟩
  · split
    · exact ⟨_, _, _, _, rfl⟩
    · split
      · exact ⟨_, _, _, _, rfl⟩
      · rename_i t ht
        obtain ⟨x, rfl⟩ := State.offer_only ht
        dsimp only
        generalize hu : State.copierLooks _ = u
        obtain ⟨m, tb, st, k, h⟩ := State.copierLooks_frame
          { ({ s with mech := x } : State) with
            table := onFirst (fun r => !r.copied) (fun r => { r with progress := r.progress + 1 })
              ({ s with mech := x } : State).table
            copier := _ }
        rw [hu] at h
        subst h
        exact ⟨_, _, _, _, rfl⟩

theorem State.activate_frame (s : State) : ∃ tb, s.activate = { s with table := tb } := by
  unfold State.activate
  split
  · exact ⟨_, rfl⟩
  · exact ⟨_, rfl⟩

/-- Settling a message touches the log, the transmitter's attempt, the request queue, the table and
the store only (R64, R144). -/
theorem State.finishMessage_frame (s : State) (o : OutOutcome) (content : Content) :
    ∃ m tb st x l, s.finishMessage o content =
      { s with mech := m, table := tb, store := st, transmitter := x, log := l } := by
  unfold State.finishMessage
  split
  · exact ⟨_, _, _, _, _, rfl⟩
  · dsimp only
    generalize hu : State.activate _ = u
    have h := State.activate_frame
    obtain ⟨tb, h⟩ := h _
    rw [hu] at h
    subst h
    exact ⟨_, _, _, _, _, rfl⟩

theorem State.collision_frame (s : State) :
    ∃ m tb st x l, s.collision =
      { s with mech := m, table := tb, store := st, transmitter := x, log := l } := by
  unfold State.collision
  split
  · exact ⟨_, _, _, _, _, rfl⟩
  · split
    · exact State.finishMessage_frame _ _ _
    · exact ⟨_, _, _, _, _, rfl⟩

theorem State.interrupt_frame (s : State) :
    ∃ m tb st x l, s.interrupt =
      { s with mech := m, table := tb, store := st, transmitter := x, log := l } := by
  unfold State.interrupt
  split
  · exact State.finishMessage_frame _ _ _
  · exact ⟨_, _, _, _, _, rfl⟩

theorem State.phaseJudged_frame (s : State) :
    ∃ m tb st x l, s.phaseJudged =
      { s with mech := m, table := tb, store := st, transmitter := x, log := l } := by
  unfold State.phaseJudged
  split
  · split
    · dsimp only
      split
      · obtain ⟨m, tb, st, x, l, h⟩ := State.finishMessage_frame (s.onActive _) _ _
        exact ⟨m, tb, st, x, l, h⟩
      · exact ⟨_, _, _, _, _, rfl⟩
    · split
      · exact ⟨_, _, _, _, _, rfl⟩
      · exact ⟨_, _, _, _, _, rfl⟩
  · exact ⟨_, _, _, _, _, rfl⟩

/-! ### The receive run -/

/-- `t` is `s` but for the mechanism and the call matcher. -/
def OnlyRun (s t : State) : Prop := ∃ m x, t = { s with mech := m, matcher := x }

theorem OnlyRun.refl (s : State) : OnlyRun s s := ⟨s.mech, s.matcher, rfl⟩

theorem OnlyRun.trans {s t u : State} (h : OnlyRun s t) (g : OnlyRun t u) : OnlyRun s u := by
  obtain ⟨m, x, rfl⟩ := h
  obtain ⟨n, y, rfl⟩ := g
  exact ⟨n, y, rfl⟩

theorem OnlyMech.run {s t : State} (h : OnlyMech s t) : OnlyRun s t := by
  obtain ⟨m, rfl⟩ := h
  exact ⟨m, _, rfl⟩

theorem State.onIncoming_run (s : State) (f : Incoming → Incoming) : OnlyRun s (s.onIncoming f) :=
  ⟨_, _, rfl⟩

theorem State.matcher_run (s : State) (x : Matcher) : OnlyRun s { s with matcher := x } :=
  ⟨s.mech, x, rfl⟩

theorem State.writeGap_run (s : State) : OnlyRun s s.writeGap := by
  unfold State.writeGap
  split
  · exact OnlyRun.refl s
  · split
    · exact ⟨_, _, rfl⟩
    · exact OnlyRun.refl s

theorem State.receiveWrite_run (s : State) (e : Entry) : OnlyRun s (s.receiveWrite e) := by
  unfold State.receiveWrite
  dsimp only
  split
  · exact (State.writeGap_run s).trans (State.write_only _ _).run
  · exact (State.writeGap_run s).trans (State.onIncoming_run _ _)

theorem State.receiveWrites_run (es : List Entry) (s : State) : OnlyRun s (s.receiveWrites es) := by
  unfold State.receiveWrites
  induction es generalizing s with
  | nil => exact OnlyRun.refl s
  | cons e es ih => exact (State.receiveWrite_run s e).trans (ih _)

theorem State.openReceiveRun_run (s : State) : OnlyRun s s.openReceiveRun := by
  unfold State.openReceiveRun
  dsimp only
  refine (State.suspendLocalRun_only s).run.trans ?_
  refine OnlyRun.trans ?_ (State.receiveWrites_run _ _)
  refine OnlyRun.trans ?_ (State.matcher_run _ _)
  refine OnlyRun.trans ?_ (State.onMech_only _ _).run
  refine OnlyRun.trans ?_ (State.write_only _ _).run
  exact (State.onQueue_only _ _).run

theorem State.closeReceiveRun_run (s : State) (d : Option Nat) : OnlyRun s (s.closeReceiveRun d) := by
  unfold State.closeReceiveRun
  split
  · exact OnlyRun.refl s
  · split
    · dsimp only
      refine OnlyRun.trans ?_ (State.onIncoming_run _ _)
      refine OnlyRun.trans ?_ (State.matcher_run _ _)
      refine OnlyRun.trans ?_ (State.onQueue_only _ _).run
      refine OnlyRun.trans ?_ (State.write_only _ _).run
      refine (State.writeGap_run s).trans ?_
      split
      · split
        · exact (State.writeAll_only _ _).run
        · exact OnlyRun.refl _
      · exact OnlyRun.refl _
    · exact OnlyRun.refl s

theorem State.matchText_run (s : State) (c : RxChar) : OnlyRun s (s.matchText c) := by
  unfold State.matchText
  split
  · dsimp only
    split
    · exact (State.onIncoming_run _ _).trans (State.receiveWrite_run _ _)
    · exact (State.onIncoming_run _ _).trans (State.onIncoming_run _ _)
    · exact State.onIncoming_run _ _
  · exact OnlyRun.refl s

end Sys2Proof.Machine
end

