-- ==== Sys2Proof/Laws/Ops.lean ====
section
/-! SUPPORT. What the shared operations on numbers, lists and the traffic log can do. -/

namespace Sys2Proof.Machine

open Sys2Proof

/-! ### The check and the counts -/

/-- Adding a symbol keeps the accumulator within 0 to 1023, adds modulo 1023, and gives 0 only for two
zeros (R7). -/
theorem addSymbol_spec (acc symbol : Nat) (ha : acc ≤ 1023) (hs : symbol ≤ 1023) :
    addSymbol acc symbol ≤ 1023 ∧ addSymbol acc symbol % 1023 = (acc + symbol) % 1023 ∧
      (addSymbol acc symbol = 0 ↔ acc + symbol = 0) := by
  unfold addSymbol
  dsimp only
  split <;> omega

/-- Feeding a covered character keeps the accumulator within 0 to 1023. -/
theorem feedCheck_le (acc : Nat) (temp : Option Code) (c : Code) (h : acc ≤ 1023) :
    (feedCheck acc temp c).1 ≤ 1023 := by
  unfold feedCheck
  cases temp with
  | none => exact h
  | some a => exact (addSymbol_spec acc _ h (by omega)).1

/-- Padding keeps the accumulator within 0 to 1023. -/
theorem padCheck_le (acc : Nat) (temp : Option Code) (h : acc ≤ 1023) : padCheck acc temp ≤ 1023 := by
  unfold padCheck
  cases temp with
  | none => exact h
  | some a => exact (addSymbol_spec acc _ h (by omega)).1

/-- A count that stops at its bound stays within it. -/
theorem addUpTo_le (bound n k : Nat) : addUpTo bound n k ≤ bound := Nat.min_le_left _ _

/-! ### Lists -/

@[simp] theorem onFirst_length {α : Type} (q : α → Bool) (f : α → α) (l : List α) :
    (onFirst q f l).length = l.length := by
  induction l with
  | nil => rfl
  | cons a rest ih => simp only [onFirst]; split <;> simp [ih]

@[simp] theorem onLast_length {α : Type} (f : α → α) (l : List α) :
    (onLast f l).length = l.length := by
  induction l using onLast.induct with
  | case1 => rfl
  | case2 a => rfl
  | case3 a b rest ih => simpa [onLast] using ih

/-- Where no element satisfies the test, nothing changes. -/
theorem onFirst_of_none {α : Type} (q : α → Bool) (f : α → α) (l : List α)
    (h : ∀ a ∈ l, q a = false) : onFirst q f l = l := by
  induction l with
  | nil => rfl
  | cons a rest ih =>
    simp only [List.mem_cons, forall_eq_or_imp] at h
    simp [onFirst, h.1, ih h.2]

/-- Every element after the change was there before, or is the changed one. -/
theorem mem_onFirst {α : Type} {q : α → Bool} {f : α → α} {l : List α} {b : α}
    (h : b ∈ onFirst q f l) : b ∈ l ∨ ∃ a ∈ l, q a = true ∧ b = f a := by
  induction l with
  | nil => exact .inl h
  | cons a rest ih =>
    simp only [onFirst] at h
    split at h
    · rcases List.mem_cons.mp h with rfl | h
      · exact .inr ⟨a, List.mem_cons_self, ‹_›, rfl⟩
      · exact .inl (List.mem_cons_of_mem _ h)
    · rcases List.mem_cons.mp h with rfl | h
      · exact .inl List.mem_cons_self
      · rcases ih h with h | ⟨x, hx, hq, rfl⟩
        · exact .inl (List.mem_cons_of_mem _ h)
        · exact .inr ⟨x, List.mem_cons_of_mem _ hx, hq, rfl⟩

/-- A change of the first element keeps what the change keeps. -/
theorem onFirst_map {α β : Type} (q : α → Bool) (f : α → α) (g : α → β) (l : List α)
    (h : ∀ a, g (f a) = g a) : (onFirst q f l).map g = l.map g := by
  induction l with
  | nil => rfl
  | cons a rest ih => simp only [onFirst]; split <;> simp [h, ih]

/-! ### The traffic log -/

@[simp] theorem Log.update_counter (l : Log) (n : Nat) (f : LogRecord → LogRecord) :
    (l.update n f).counter = l.counter := rfl

@[simp] theorem Log.update_length (l : Log) (n : Nat) (f : LogRecord → LogRecord) :
    (l.update n f).records.length = l.records.length := by simp [Log.update]

/-- A change that keeps the number of a record keeps the numbers of the log. -/
theorem Log.update_numbers (l : Log) (n : Nat) (f : LogRecord → LogRecord)
    (h : ∀ r, (f r).number = r.number) :
    (l.update n f).records.map LogRecord.number = l.records.map LogRecord.number := by
  simp only [Log.update, List.map_map]
  refine List.map_congr_left fun r _ => ?_
  simp only [Function.comp]
  split
  · exact h r
  · rfl

/-- A record of the changed log is an untouched one, or the change of the unfinished record `n` (R171). -/
theorem Log.mem_update {l : Log} {n : Nat} {f : LogRecord → LogRecord} {r : LogRecord}
    (h : r ∈ (l.update n f).records) :
    (r ∈ l.records ∧ ¬(r.number = n ∧ r.finished = false)) ∨
      ∃ r' ∈ l.records, r'.number = n ∧ r'.finished = false ∧ r = f r' := by
  simp only [Log.update, List.mem_map] at h
  obtain ⟨r', hr', rfl⟩ := h
  split
  · exact .inr ⟨r', hr', ‹_ ∧ _›.1, ‹_ ∧ _›.2, rfl⟩
  · exact .inl ⟨hr', ‹_›⟩

/-- What stays when the oldest finished record leaves is a part of what stood, in its order (R172). -/
theorem dropOldestFinished_sublist (l : List LogRecord) : (dropOldestFinished l).Sublist l := by
  induction l with
  | nil => exact List.Sublist.refl _
  | cons r rs ih =>
    simp only [dropOldestFinished]
    split
    · exact List.sublist_cons_self r rs
    · exact ih.cons_cons r

/-- A finished record makes room for one more (R172). -/
theorem dropOldestFinished_length (l : List LogRecord) (h : ∃ r ∈ l, r.finished = true) :
    (dropOldestFinished l).length + 1 = l.length := by
  induction l with
  | nil => simp at h
  | cons r rs ih =>
    simp only [dropOldestFinished]
    split
    · rfl
    · rename_i hr
      simp only [List.mem_cons, exists_eq_or_imp, hr, Bool.false_eq_true, false_or] at h
      simp [ih h]

/-- The record made is the newest one, under the number answered, and the counter stands behind that
number (R172). -/
theorem Log.create_spec (l : Log) (seq : Code) (body : LogBody) :
    ∃ kept, (kept = l.records ∨ kept = dropOldestFinished l.records) ∧
      (l.create seq body).1.records =
        kept ++ [{ number := (l.create seq body).2, seq := seq, chars := 0, body := body }] ∧
      (l.create seq body).1.counter = ((l.create seq body).2 + 1) % 256 := by
  unfold Log.create
  dsimp only
  split
  · exact ⟨_, .inr rfl, rfl, rfl⟩
  · exact ⟨_, .inl rfl, rfl, rfl⟩

end Sys2Proof.Machine
end

