-- ==== Sys2Proof/Tests/Slice0.lean ====
section
/-! SUPPORT. Tests: ill-formed commands, the worked examples of the spec with their printed values, and for
every statement with hypotheses a state that meets them. -/

namespace Sys2Proof.Tests

open Sys2Proof Sys2Proof.Machine

/-! The kernel evaluations below run one after another, so that they do not each start a thread. -/

set_option Elab.async false

/-! ### Small states -/

/-- The state a command leaves. -/
def after (c : Instr) (s : State) : State :=
  match exec c s with
  | .next t => t
  | _ => s

/-- The good image of section 11.5, with check 182. -/
def goodImage : List Nat :=
  [166, 5, 31, 0, 8, 2, 12, 2, 2, 15, 50, 72, 0, 1, 3, 15, 8, 12, 100, 80, 8, 75, 50, 60, 10, 4,
    6, 15, 24, 5] ++ List.replicate 16 0 ++ [0, 182]

/-- The bits of an image, the highest place of byte 0 first. -/
def imageBits (image : List Nat) : List Bool :=
  image.flatMap fun b => [7, 6, 5, 4, 3, 2, 1, 0].map b.testBit

/-- Line at mark, paper and tape present, punch switch at RECEIVE, ATTENDED. -/
def pins : Inputs where
  line := .mark
  paper := true
  tapeLow := false
  tapePresent := true
  speedOk := true
  leftMargin := true
  mode := .attended
  switchA := true
  switchB := false

/-- Station 5 of the examples right after its configuration read, with nothing requested. -/
def ready : State :=
  let s := after (.configReadEnd (imageBits goodImage) pins 0) State.reset
  s.onQueue fun q => { q with requests := [] }

def onPrinter (f : Printer → Printer) (s : State) : State :=
  { s with mech := { s.mech with printer := f s.mech.printer } }

def onPunch (f : Punch → Punch) (s : State) : State :=
  { s with mech := { s.mech with punch := f s.mech.punch } }

def onMotor (f : Motor → Motor) (s : State) : State :=
  { s with mech := { s.mech with motor := f s.mech.motor } }

def running : State := onMotor (fun d => { d with state := .running }) ready

/-- The keys wait in the key queue and the motor runs. -/
def keysWait (ks : List Key) (s : State) : State :=
  { onMotor (fun d => { d with state := .running }) s with
    keyboard := { s.keyboard with
      queue := ks.map fun k => { key := k, case := match k with | .data _ => some .alpha | _ => none } } }

def inState (l : ListenerState) (s : State) : State := s.onListener fun x => { x with state := l }

def composing (c : ComposerState) (s : State) : State :=
  { s with composer := { s.composer with state := c } }

def aMessage (st : MessageState) : Message where
  logNumber := 0
  group := 0
  station := 9
  kind := 1
  seq := 3
  state := st
  retries := 0
  collisions := 0
  answers := []
  content := .none

/-- A table of one message record of two characters. -/
def withMessage (st : MessageState) (s : State) : State :=
  { s with
    table := [{ start := 0, length := 2, progress := 0, copied := false, body := .message (aMessage st) }]
    store := { base := 0, chars := [30, 8] } }

/-- A table of one open local record, copied up to `progress`. -/
def withOpenText (progress : Nat) (s : State) : State :=
  { s with
    table := [{ start := 0, length := 2, progress := progress, copied := false, body := .text true }]
    store := { base := 0, chars := [30, 8] } }

def anAttempt (stage : Stage) : Attempt where
  granted := 0
  stage := stage
  acc := 0
  temp := none
  cancel := false
  stopped := none
  phase := none
  phaseOver := false

def sending (stage : Stage) (s : State) : State :=
  let s := withMessage .sending s
  { s with transmitter := { s.transmitter with attempt := some (anAttempt stage) } }

def keyedChar (code : Code) (unit : Nat) (next : Supply) : KeyedChar :=
  { code := code, start := 1000, unit := unit, next := next }

def keying (h : Holder) (c : KeyedChar) (s : State) : State :=
  { s with keyer := { holder := h, current := some c, spaceSince := none } }

def aHeader (kind : Code) : Header :=
  { group := 0, station := 5, originator := 12, kind := kind, seq := 3 }

def anIncoming (d : Disposition) : Incoming where
  header := aHeader 1
  logNumber := 0
  disposition := d
  toPrint := true
  toPunch := false
  runOpen := false
  pendingGap := 0
  lost := 0
  chars := 0

/-- An ACCEPTED message whose run is open. -/
def inRun (i : Incoming) (s : State) : State :=
  let s := s.onQueue fun q => { q with holder := .receive }
  { s with matcher := { s.matcher with
      state := .called, incoming := some { i with disposition := .accepted, runOpen := true } } }

def holding (c : RxChar) (s : State) : State := s.onListener fun l => { l with held := some c }

def called (d : Disposition) (s : State) : State :=
  { s with matcher := { s.matcher with state := .called, incoming := some (anIncoming d) } }

def anAnswer : Answer := { response := 1, chars := [1, 5], start := 5000, supplied := 1 }

def answerIn (m : MatcherState) (s : State) : State :=
  { s with matcher := { s.matcher with state := m, answer := some anAnswer } }

def atSpace (s : State) : State :=
  { s with receiver := { s.receiver with level := some .space, spaceDate := some 700 } }

def assembling (confirmed : Bool) (bits : List Bool) (s : State) : State :=
  { s with receiver := { s.receiver with assembler := .assembling 100 false confirmed bits } }

def aChar (code : Code) : RxChar :=
  { code := code, damaged := false, start := 0, stop := 8400, paused := false }

/-- The listener has taken the four header characters before the sequence number. -/
def atFifth (kind : Code) (s : State) : State :=
  s.onListener fun l => { l with state := .header, fields := [0, 5, 12, kind], acc := 5 }

/-- The second check character is to come, and the first makes the check good with 18. -/
def atSecondCheck (s : State) : State :=
  s.onListener fun l =>
    { l with
      state := .check, fields := [0, 5, 12, 1, 3], valid := true, acc := 781, check := some (aChar 7) }

def entriesWait (es : List Entry) (s : State) : State := s.onQueue fun q => { q with entries := es }

/-! ### Well-formed commands -/

theorem test_read_of_383_clocks_refused :
    (Instr.configReadEnd (List.replicate 383 false) pins 0).wellFormed = false := by decide +kernel

theorem test_run_of_no_sample_refused :
    (Instr.filteredLevelChange 0 0).wellFormed = false := by decide

theorem test_good_image_accepted :
    (Instr.configReadEnd (imageBits goodImage) pins 0).wellFormed = true := by decide +kernel

theorem test_no_word_spells_a_command : decodeTableWord 8 5 = none := by decide

/-! ### Worked examples -/

/-- Section 1.2: the even text message, checks 781 and 242. -/
theorem test_check_even : checkOf [0, 5, 12, 1, 3, 30, 8, 9] (0, none) = 781 := by decide

/-- Section 1.2: the odd text message, 686. -/
theorem test_check_odd : checkOf [0, 5, 12, 1, 3, 30, 8, 9, 29] (0, none) = 686 := by decide

/-- Section 1.2: the enquiry, 141. -/
theorem test_check_enquiry : checkOf [0, 9, 4, 4, 0] (0, none) = 141 := by decide

/-- Section 1.2: the call to all with the two zeros, 289. -/
theorem test_check_two_zeros : checkOf [31, 31, 7, 1, 2] (0, none) = 289 := by decide

/-- Section 1.2: the changed character gives 32 and not 1023. -/
theorem test_check_changed :
    addSymbol (checkOf [0, 5, 12, 1, 3, 30, 9, 9] (0, none)) 242 = 32 := by decide

/-- Section 1.2: on the line the message is 25, 1, 0, 5, 12, 1, 3, 30, 8, 9, 25, 2, 7, 18. -/
theorem test_attempt_supplies_the_worked_message :
    Attempt.supplied [0, 5, 12, 1, 3] [30, 8, 9] 20 (anAttempt .opening) =
      [1, 0, 5, 12, 1, 3, 30, 8, 9, 25, 2, 7, 18] := by decide

/-- Section 3.2: stations 5, 7, 2, 4 after station 4. -/
theorem test_defers : [5, 7, 2, 4].map (defer · 4) = [2, 6, 58, 62] := by decide

/-- Section 4.2: own number 5 with masks 28 and 30. -/
theorem test_care_masks :
    (List.finRange 32).filter (stationMatches 5 28) = [4, 5, 6, 7, 31] ∧
      (List.finRange 32).filter (stationMatches 5 30) = [4, 5, 31] := by decide

/-- Section 11.5: the good image is CONFIGURED as station 5, its sum 841. -/
theorem test_good_image :
    (goodImage.take 46).foldl addSymbol 0 = 841 ∧ ready.loader.standing = .configured ∧
      ready.loader.params.own = some 5 ∧ ready.loader.params.answerBack = [6, 15, 24, 5] := by
  decide +kernel

/-- Section 11.5: byte 11 read as 200 refuses the image. -/
theorem test_damaged_image :
    (after (.configReadEnd (imageBits (goodImage.set 11 200)) pins 0) State.reset).loader.standing =
      .unconfigured := by decide +kernel

/-- Section 10.3: the delivery notice 09 1 011 031 062. -/
theorem test_delivery_notice :
    deliveryNotice {
      number := 0, seq := 9, chars := 0
      body := .outgoing none none (some .delivered)
        [⟨1, 1⟩, ⟨3, 1⟩, ⟨6, 2⟩] .none 0 0 } =
      some [28, 27, 29, 1, 10, 26, 2, 26, 1, 2, 2, 26, 1, 4, 2, 26, 1, 7, 3, 28, 27] := by decide

/-- Section 10.3: the answered enquiry of sequence number 0. -/
theorem test_enquiry_notice :
    deliveryNotice {
      number := 0, seq := 0, chars := 0
      body := .outgoing none none (some .answered) [⟨9, 1⟩] (.answerBack [8, 9, 12, 5]) 0 0 } =
      some [28, 27, 29, 1, 1, 26, 8, 26, 1, 10, 2, 26, 30, 8, 9, 12, 5, 28, 27] := by decide

/-- Section 10.5: a full log gives 3 + 16 × 28 = 451 entries. -/
theorem test_log_notice_length :
    (logNotice {
      records := List.replicate 16 {
        number := 7, seq := 9, chars := 3, body := .incoming 12 1 (some .complete) 0 }
      counter := 0 }).length = 451 := by decide +kernel

/-- Section 11.5: the start notice prints 05 0. -/
theorem test_start_notice : startNotice (some 5) 0 = [28, 27, 29, 1, 6, 26, 1, 28, 27] := by decide

/-- Section 4.4: RUN-START, RETURN, NEWLINE, NEWLINE, ALPHA and three BLANKs open the run. -/
theorem test_run_opens :
    let s := after .stopSample (assembling true [false, false, false, true, true] (atFifth 1 ready))
    s.mech.queue.entries =
        [.runStart, printChar 28, printChar 27, printChar 27, printChar 30,
          .char 0 false .punch, .char 0 false .punch, .char 0 false .punch] ∧
      s.mech.queue.holder = .receive ∧ s.listener.lastOriginator = 12 ∧
      s.mech.motor.state = .starting := by decide +kernel

/-- Section 4.4: the answer to slot 5 begins at T0 + 1090 ms. -/
theorem test_answer_in_slot_five :
    let s := (called .accepted (atSecondCheck ready)).listen (aChar 18)
    s.matcher.state = .due ∧ s.listener.state = .slottedAnswers ∧
      s.matcher.answer = some {
        response := 1, chars := [1, 5], start := 8400 + 1090 * 120, supplied := 0 } ∧
      s.matcher.peer 12 = some { seq := 3, response := 1 } := by decide +kernel

/-- Section 2.1: BLANK is six units of space; CONTROL is mark, mark, space, space, mark. -/
theorem test_keyed_units :
    [1, 2, 3, 4, 5].map (keyedLevel 25) = [.mark, .mark, .space, .space, .mark] ∧
      [0, 1, 2, 3, 4, 5].map (keyedLevel 0) = List.replicate 6 .space := by decide

/-- Section 6.6: the strike of 8 in alpha case has target 7. -/
theorem test_strike_target : strikeTarget .alpha 8 = 7 ∧ strikeTarget .numeric 1 = 24 := by decide

/-- R147: a data key with the send case unknown stores its case code first. -/
theorem test_first_data_key :
    let s := after .dataKey (keysWait [.data 7, .data 8] ready)
    s.store.chars = [30, 8] ∧ (after .dataKey s).store.chars = [30, 8, 9] := by decide +kernel

/-- R129: row 19 asserts PUNCH 1, 4 and 5. -/
theorem test_row_holes : rowHoles 19 = [true, false, false, true, true] := by decide

/-! ### Witnesses: the whole machine -/

theorem witness_step :
    ({ ready with pending := [.bellKey, .start] } : State).pending = .bellKey :: [.start] ∧
      ready.pending = [] := by decide +kernel

theorem witness_reading : State.reset.working = false ∧ Instr.bellKey ≠ .start := by decide

theorem witness_last_originator :
    let s := assembling true [false, false, false, true, true] (atFifth 4 ready)
    (after .stopSample s).listener.lastOriginator ≠ s.listener.lastOriginator := by decide +kernel

theorem witness_sequence :
    (after .callKey (keysWait [.call] ready)).transmitter.seq ≠ ready.transmitter.seq := by
  decide +kernel

theorem witness_peers :
    let s := assembling true [true, false, false, true, false] (called .accepted (atSecondCheck ready))
    (after .stopSample s).matcher.peers ≠ s.matcher.peers ∧ s.listener.state = .check ∧
      s.listener.check = some (aChar 7) ∧ (after .stopSample s).listener.acc = 1023 := by
  decide +kernel

theorem witness_faults_left :
    let s := onPrinter (fun r => { r with state := .fault })
      (onPunch (fun u => { u with state := .fault }) (onMotor (fun d => { d with state := .fault }) ready))
    s.working = true ∧ s.printerSafe ∧ s.punchSafe ∧ s.motorSafe ∧
      (after (.clear 0) s).mech.printer.state ≠ .fault ∧
      (after (.clear 0) s).mech.punch.state ≠ .fault ∧
      (after (.clear 0) s).mech.motor.state ≠ .fault := by decide +kernel

theorem witness_input_flags :
    ready.working = true ∧
      (after (.modeEvent .unattended 0) ready).mech.motor.mode ≠ ready.mech.motor.mode ∧
      (after (.punchSwitchEvent false false 0) ready).mech.punch.switch ≠ ready.mech.punch.switch ∧
      (after (.speedOkChange false 0) ready).mech.motor.speedOk ≠ ready.mech.motor.speedOk ∧
      (after (.paperOut 0) ready).mech.printer.paper ≠ ready.mech.printer.paper ∧
      (after (.wheelPositionEvent false 0) ready).mech.printer.wheel ≠ ready.mech.printer.wheel ∧
      (after (.tapeGone 0) ready).mech.punch.tapePresent ≠ ready.mech.punch.tapePresent ∧
      (after (.tapeLow 0) ready).mech.punch.tapeLow ≠ ready.mech.punch.tapeLow := by decide +kernel

/-- The start notice's request waits, and the command that tests it is in front. -/
def waiting : State :=
  let s := after (.configReadEnd (imageBits goodImage) pins 0) State.reset
  { s with pending := [.noticeRunWrite] }

/-- One state that meets every invariant, with a command in front of its queue. -/
theorem witness_queue_safe : waiting.queueSafe := by decide +kernel

theorem witness_listener_safe : waiting.listenerSafe ∧ waiting.keyerSafe := by decide +kernel

theorem witness_mechanism_safe :
    waiting.printerSafe ∧ waiting.punchSafe ∧ waiting.motorSafe := by decide +kernel

theorem witness_tables_safe :
    waiting.tablesSafe ∧ waiting.logSafe ∧ waiting.peersSafe := by decide +kernel

/-- Its step answers a next state: the 11 entries of the start notice wait (R186). -/
theorem witness_safe_step :
    (match step waiting with
     | .next t => t.mech.queue.entries.length == 11 && t.mech.queue.held == 1
     | _ => false) = true := by decide +kernel

/-! ### Witnesses: configuration, keyer, contention -/

/-- The good image, the same as LISTEN-ONLY, and one without the marker. -/
theorem witness_config_read :
    let listen := (goodImage.set 1 31).set 47 156
    (State.reset.working = false ∧ State.reset.printerSafe ∧ (imageBits goodImage).length = 384) ∧
    (imageAccepted goodImage = true ∧ imageAccepted (goodImage.set 0 0) = false) ∧
    (after (.configReadEnd (imageBits listen) pins 0) State.reset).loader.standing = .listenOnly ∧
    ready.working = true ∧ (List.replicate 383 false).length ≠ 384 := by decide +kernel

theorem witness_clamp :
    (10 : Nat) < 20 ∧ 150 < 151 ∧ (20 ≤ 20 ∧ 20 ≤ 150) ∧ (26 ≤ 26 ∧ 45 ≤ 45) ∧ 255 < 256 := by decide

theorem witness_check_addition :
    ((1023 : Nat) ≤ 1023 ∧ 0 + 1023 ≤ 1023 ∧ 1023 < 1023 + 1) ∧
      ([1023, 1] : List Nat).sum = [512, 512].sum := by decide

theorem witness_attempt :
    (anAttempt .opening).stage = .opening ∧ (anAttempt .opening).cancel = false ∧
      [(0 : Code), 9, 5, 1, 3].length = 5 := by decide

theorem witness_units :
    let s := keying .message (keyedChar 25 5 .unasked) ready
    s.working = true ∧ s.keyer.current = some (keyedChar 25 5 .unasked) := by decide +kernel

/-- Free to begin; under each hold; with the keyer held. -/
theorem witness_attempt_begin :
    let s := inState .idle (withMessage .contending ready)
    (s.working = true ∧ s.active = some (aMessage .contending) ∧ s.receiver.level = some .mark ∧
      s.receiver.markDate = some 0 ∧ s.loader.params.own = some 5) ∧
    s.keyer.holder = .none ∧ s.contentionHeld = false ∧
    (inState .freeAnswer s).contentionHeld = true ∧ (answerIn .due s).contentionHeld = true ∧
    (keying .breakKey (keyedChar 0 0 .unasked) s).keyer.holder ≠ .none := by decide +kernel

theorem witness_supply :
    let s := sending (.text 0 false) (keying .message (keyedChar 25 5 .unasked) ready)
    let a := answerIn .keying (keying .answer (keyedChar 1 6 .unasked) ready)
    (s.working = true ∧ s.keyer.current = some (keyedChar 25 5 .unasked) ∧ s.keyer.holder = .message ∧
      s.transmitter.attempt = some (anAttempt (.text 0 false)) ∧
      (s.table.find? OutRecord.isActive).isSome = true) ∧
    a.working = true ∧ a.keyer.current = some (keyedChar 1 6 .unasked) ∧ a.keyer.holder = .answer ∧
    a.matcher.answer = some anAnswer := by decide +kernel

/-- A phase heard and not over; one over before the report; a cancel; no phase. -/
theorem witness_stop_element :
    let s := fun next stage => keying .message (keyedChar 25 6 next) (sending stage ready)
    let heard := fun ended : Bool => { anAttempt (.finished false) with
      phase := some { t0 := 0, isFree := false }, phaseOver := ended }
    let x : State := { s .finished (.finished false) with
      transmitter := { ready.transmitter with attempt := some (heard true) } }
    let a := answerIn .keying (keying .answer (keyedChar 5 6 .finished) ready)
    (s .unasked .opening).keyer.current = some (keyedChar 25 6 .unasked) ∧
    (s (.char 1) .opening).keyer.current = some (keyedChar 25 6 (.char 1)) ∧
    ((s .finished (.finished false)).working = true ∧
      (s .finished (.finished false)).keyer.holder = .message ∧
      (s .finished (.finished true)).transmitter.attempt = some (anAttempt (.finished true)) ∧
      (anAttempt (.finished false)).phase = none ∧ (heard false).phaseOver = false) ∧
    (x.transmitter.attempt.bind Attempt.phase = some { t0 := 0, isFree := false } ∧
      ({ x with table := (withMessage .answering x).table } : State).active =
        some (aMessage .answering)) ∧
    a.keyer.current = some (keyedChar 5 6 .finished) ∧ a.matcher.state = .keying := by decide +kernel

/-- At the first compare point of a CONTROL, unit 1, and half a unit into its stop element. -/
theorem witness_mismatch :
    let s := atSpace (keying .message (keyedChar 25 1 .unasked) (sending .opening ready))
    let a := atSpace (answerIn .keying (keying .answer (keyedChar 5 6 .finished) ready))
    (s.working = true ∧ s.keyer.current = some (keyedChar 25 1 .unasked) ∧
      keyedLevel 25 1 = .mark ∧ s.loader.params.unit = 1200 ∧
      (1000 + 1 * 1200 + 1200 / 2 : Nat) = 2800 ∧ s.receiver.level = some .space ∧
      s.keyer.holder = .message ∧ s.transmitter.attempt = some (anAttempt .opening)) ∧
    (keyedChar 25 1 .unasked).comparesAt s.loader.params 2800 = true ∧
    a.keyer.holder = .answer ∧ a.matcher.state = .keying ∧
    (keyedChar 5 6 .finished).comparesAt a.loader.params 8800 = true ∧
    ready.receiver.level ≠ some .space := by decide +kernel

theorem witness_collision :
    (sending .opening ready).active = some (aMessage .sending) ∧
      (aMessage .sending).collisions < 7 ∧
      7 ≤ ({ aMessage .sending with collisions := 7 } : Message).collisions := by decide +kernel

/-- R62, R64: an answered record keeps the content of its answer while it stays in the table. -/
theorem test_content_is_kept :
    (((withMessage .answering ready).finishMessage .answered (.answerBack [8, 9])).table.map
      fun r => (r.isDone, r.message.map Message.content)) =
      [(true, some (.answerBack [8, 9]))] := by decide +kernel

theorem witness_break :
    let held : State := { ready with
      keyboard := ready.keyboard.setKey .brk true
      keyer := { holder := .breakKey, current := none, spaceSince := some 9 } }
    (ready.working = true ∧ ready.keyboard.isDown .brk = false ∧
      ready.mech.motor.mode = .attended ∧ ready.keyer.holder = .none) ∧
    (onMotor (fun d => { d with mode := .unattended }) ready).mech.motor.mode = .unattended ∧
    (keying .message (keyedChar 25 1 .unasked) ready).keyer.holder = .message ∧
    (keying .answer (keyedChar 25 1 .unasked) ready).keyer.holder = .answer ∧
    ({ held with keyboard := ready.keyboard } : State).keyboard.isDown .brk = false ∧
    held.keyboard.isDown .brk = true ∧ held.keyer.spaceSince = some 9 ∧
    held.keyer.holder = .breakKey := by decide +kernel

theorem witness_answer_start :
    let s := answerIn .due ready
    s.working = true ∧ s.matcher.state = .due ∧ s.matcher.answer = some anAnswer ∧
      s.keyer.holder = .none ∧
      (keying .message (keyedChar 25 1 .unasked) s).keyer.holder ≠ .none := by decide +kernel

/-! ### Witnesses: the line -/

/-- The glitch width is 2 and the samples are 150 apart: one sample and two at 150, none at 151. -/
theorem witness_level_change :
    let w : State := { atSpace ready with
      receiver := { (atSpace ready).receiver with assembler := .withholding 100 false 3 } }
    let x : State := { atSpace (sending .opening ready) with
      transmitter := { ready.transmitter with
        attempt := some { anAttempt .opening with
          stopped := some { comparePoint := 2800, spaceDate := some 700 } } } }
    (ready.working = true ∧ 1 < ready.loader.params.glitch ∧ ready.loader.params.glitch ≤ 2 ∧
      ready.receiver.level = some .mark) ∧
    (ready.receiver.sampled = some 0 ∧ w.receiver.sampled = some 0 ∧ x.receiver.sampled = some 0 ∧
      0 + ready.loader.params.unit / 8 ≤ 150 ∧ (150 - 0) % (ready.loader.params.unit / 8) = 0 ∧
      (151 - 0) % (ready.loader.params.unit / 8) ≠ 0) ∧
    (w.receiver.level = some .space ∧ w.receiver.assembler = .withholding 100 false 3 ∧
      w.transmitter.attempt = none) ∧
    (atSpace ready).receiver.assembler = .empty ∧
    (atSpace ready).transmitter.attempt.bind Attempt.stopped = none ∧
    x.transmitter.attempt.bind Attempt.stopped =
      some { comparePoint := 2800, spaceDate := some 700 } := by decide +kernel

/-- R41, R30: the damaged character is taken and counted, and then the attempt it stopped has collided. -/
theorem test_damaged_character_before_the_collision :
    let s : State := inState .idle (atSpace (sending .opening ready))
    let s : State := { s with
      receiver := { s.receiver with assembler := .withholding 100 false 3 }
      transmitter := { s.transmitter with
        attempt := some { anAttempt .opening with
          stopped := some { comparePoint := 2800, spaceDate := some 700 } } } }
    let t := after (.filteredLevelChange 2 8700) s
    s.transmitter.attempt.isSome = true ∧ t.listener.errors = 1 ∧ t.transmitter.attempt = none ∧
      t.active.map Message.collisions = some 1 := by decide +kernel

/-- R26: a run of two samples is confirmed at its second and dated at its first; the next run begins later. -/
theorem test_run_is_dated_at_its_first_sample :
    let s := after (.filteredLevelChange 2 150) (inState .idle ready)
    s.now = 300 ∧ s.receiver.spaceDate = some 150 ∧ s.receiver.sampled = some 300 ∧
      after (.filteredLevelChange 2 300) s = s ∧
      (after (.filteredLevelChange 2 450) s).receiver.level = some .mark := by decide +kernel

theorem witness_assembler :
    let bits := [true, false, true, false]
    (assembling false [] (atSpace ready)).receiver.level = some .space ∧
    (assembling false [] ready).receiver.level ≠ some .space ∧
    (assembling false [] ready).working = true ∧
    (assembling true bits ready).receiver.assembler = .assembling 100 false true bits ∧
    bits.length < 5 ∧ (bits ++ [true]).length = 5 ∧
    (assembling true (bits ++ [true]) (atSpace ready)).receiver.level ≠ some .mark := by
  decide +kernel

theorem witness_stop_sample_at_mark :
    let s := inState .idle (assembling true [true, true, false, false, true] ready)
    s.working = true ∧ s.receiver.assembler = .assembling 100 false true [true, true, false, false, true] ∧
      s.receiver.level = some .mark := by decide +kernel

/-- Every state a character can find, outside a call: in IDLE, late and held; in HEADER, after two fields and
after four; at the first check character; in TEXT; in a phase of an attempt. -/
theorem witness_characters :
    let late := (inState .idle ready).onListener fun l => { l with phaseEnd := some 50 }
    let con := aChar 25
    let two := inState .header (ready.onListener fun l => { l with fields := [0, 5] })
    let heard : State := { inState .freeAnswer ready with
      transmitter := { ready.transmitter with
        attempt := some { anAttempt (.finished false) with phase := some { t0 := 0, isFree := true } } } }
    (ready.listener.state = .quietWait ∧ late.listener.phaseEnd = some 50 ∧ (aChar 5).start < 50) ∧
    ((inState .idle ready).listener.phaseEnd = none ∧ (inState .idle ready).listener.held = none ∧
      (holding con (inState .idle ready)).listener.held = some con) ∧
    ({ con with paused := true }.code = 25 ∧ (inState .check ready).listener.check = none ∧
      ready.matcher.state = .idle ∧ ready.matcher.incoming = none) ∧
    ((holding con two).listener.held = some con ∧ two.listener.fields.length < 3 ∧
      (holding con (atFifth 1 ready)).listener.fields.length = 4 ∧ con.damaged = false) ∧
    ((holding con (inState .check ready)).listener.held = some con ∧
      (holding con (inState .text ready)).listener.held = some con ∧
      (inState .text ready).listener.held = none) ∧
    (heard.listener.state = .freeAnswer ∧
      heard.transmitter.attempt.any (fun a => a.phase.isSome) = true) := by decide +kernel

/-- In a call: CALL, CANCEL and text after a held CONTROL, and CALL at the first check character. -/
theorem witness_characters_of_a_call :
    let s := fun l => holding (aChar 25) (inState l (inRun (anIncoming .accepted) ready))
    (s .text).matcher.state = .called ∧ (s .text).listener.held = some (aChar 25) ∧
      (s .text).matcher.incoming.isSome = true ∧ (s .check).listener.check = none ∧
      ((inState .text (inRun (anIncoming .accepted) ready)).listen (aChar 25)).listener.held =
        some (aChar 25) ∧
      ((s .text).listen (aChar 2)).listener.state = .check ∧
      ((s .text).listen (aChar 2)).matcher.state = .called ∧
      ((s .text).listen (aChar 1)).listener.state = .header ∧
      ((s .text).listen (aChar 3)).listener.state = .idle ∧
      ((s .check).listen (aChar 1)).matcher.state = .idle := by decide +kernel

/-- R17, R23: a damaged paused CONTROL held after four fields is the fifth, and the check is spoiled. -/
theorem test_damaged_control_is_a_value :
    let con : RxChar := { aChar 25 with damaged := true, paused := true }
    let s := (atFifth 4 ready).listen con
    s.listener.held = some con ∧ (s.listen (aChar 5)).listener.fields = [0, 5, 12, 4, 25] ∧
      (s.listen (aChar 5)).listener.state = .text ∧ (s.listen (aChar 5)).listener.damaged = true ∧
      (s.listen (aChar 5)).listener.errors = 1 := by decide +kernel

/-- R19, R77: a damaged opening pair gives CHECK though the check is good. -/
theorem test_damaged_pair_gives_check :
    let s := (called .enquiry (atSecondCheck ready)).onListener fun l => { l with pairDamaged := true }
    (s.listen (aChar 18)).matcher.answer.map Answer.response = some 3 ∧
      (s.listen (aChar 18)).listener.errors = 0 := by decide +kernel

theorem witness_header :
    let c := aChar 3
    (inState .header ready).listener.fields.length < 4 ∧
    ((atFifth 1 ready).listener.state = .header ∧ (atFifth 1 ready).listener.held = none ∧
      ¬ (c.code = 25 ∧ c.paused = true) ∧ ({ c with damaged := true } : RxChar).damaged = true ∧
      headerOf ((atFifth 1 ready).listener.fields ++ [c.code]) = some (aHeader 1)) ∧
    (aHeader 0).valid = false ∧ (aHeader 1).valid = true ∧
    (ready.loader.matches { aHeader 1 with station := 6 } = false ∧
      (called .accepted ready).matcher.state ≠ .idle) ∧
    ready.loader.matches (aHeader 4) = true ∧ ready.matcher.state = .idle ∧
    ready.disposition (aHeader 4) ≠ .accepted ∧ ready.loader.matches (aHeader 1) = true ∧
    ready.disposition (aHeader 1) = .accepted := by decide +kernel

/-- Called by no message, by an ENQUIRY, and by an ACCEPTED message with its run open; an attempt of this
station's own listens. -/
theorem witness_second_check :
    let s := atSecondCheck ready
    let r := inRun (anIncoming .accepted) s
    (s.listener.state = .check ∧ s.listener.check = some (aChar 7) ∧
      headerOf s.listener.fields = some (aHeader 1) ∧ s.matcher.state ≠ .called) ∧
    (called .enquiry s).matcher.state = .called ∧
    (called .enquiry s).matcher.incoming = some (anIncoming .enquiry) ∧
    (r.matcher.state = .called ∧ r.queueSafe ∧
      r.matcher.incoming = some { anIncoming .accepted with runOpen := true }) ∧
    ((sending .checkLow s).active.any (·.state == .sending) = true ∧
      (anAttempt .checkLow).granted ≤ s.now) := by decide +kernel

/-- R78, R79: an accepted message leaves its RUN-END, its peer entry and the port. -/
theorem test_accepted_message_ends :
    let s := (inRun (anIncoming .accepted) (atSecondCheck ready)).listen (aChar 18)
    s.mech.queue.entries = [.runEnd] ∧ s.mech.queue.holder = .none ∧
      s.matcher.peer 12 = some { seq := 3, response := 1 } ∧ s.matcher.incoming = none := by
  decide +kernel

theorem witness_calls :
    ready.loader.params.own = some 5 ∧ (aHeader 1).valid = true ∧ (aHeader 19).valid = true ∧
      ready.mech.refuses 1 = false ∧
      (onPrinter (fun r => { r with state := .fault }) ready).mech.refuses 1 = true ∧
      ({ ready with
         matcher := { ready.matcher with
           peers := ready.matcher.peers.setIfInBounds 12 (some { seq := 3, response := 1 }) } } :
        State).matcher.peer 12 = some { seq := 3, response := 1 } ∧
      (entriesWait (List.replicate 2046 .runEnd) ready).mech.queue.entries.length + 2 ≤ 2048 ∧
      ¬ (entriesWait (List.replicate 2047 .runEnd) ready).mech.queue.entries.length + 2 ≤ 2048 := by
  decide +kernel

/-- Able, not able; a slot for 5 of 8, none of 5. -/
theorem witness_response :
    ready.mech.able (anIncoming .accepted) = true ∧
      (onPrinter (fun r => { r with state := .paperOut }) ready).mech.able
        (anIncoming .accepted) = false ∧
      ((5 : Code).val < ready.loader.params.slots ∧ ready.loader.params.own = some 5) ∧
      ({ ready.loader.params with slots := 5 } : Params).slots ≤ (5 : Code).val := by decide +kernel

theorem witness_status :
    ready.statusCharacters = [1, 0, 0, 0, 0, 0] ∧ ready.listener.errors ≤ 63 ∧
      (onMotor (fun d => { d with state := .fault, mode := .unattended }) ready).statusCharacters =
        [2, 3, 3, 0, 0, 0] := by decide +kernel

theorem witness_silence :
    let r := inRun (anIncoming .accepted) (inState .text ready)
    let f := (inState .freeAnswer ready).onListener fun l => { l with t0 := 5 }
    (ready.working = true ∧ ready.receiver.level = some .mark ∧ ready.receiver.markDate = some 0 ∧
      ready.receiver.quietReported = false ∧ ready.listener.state = .quietWait) ∧
    ready.matcher.state ≠ .called ∧
    (r.matcher.state = .called ∧ r.matcher.incoming.isSome = true ∧ r.listener.held = none ∧
      (holding (aChar 25) r).listener.held = some (aChar 25)) ∧
    (0 ≤ f.listener.t0 ∧
      ({ f with receiver := { f.receiver with markDate := some 6 } } : State).receiver.markDate = some 6 ∧
      f.listener.t0 < 6 ∧ f.transmitter.attempt.bind Attempt.phase = none) ∧
    (after .markLastingQ ready).receiver.quietReported = true := by decide +kernel

/-- In quiet, in a message, in a message of this station, in a phase: none of an attempt, one of a SENDING and
one of an ANSWERING record. -/
theorem witness_break_event :
    let s := atSpace ready
    let r := inRun (anIncoming .accepted) (inState .text s)
    let f := fun st : MessageState => { withMessage st (inState .freeAnswer s) with
      transmitter := { s.transmitter with
        attempt := some { anAttempt (.finished false) with phase := some { t0 := 0, isFree := true } } } }
    (s.working = true ∧ s.receiver.level = some .space ∧ s.receiver.spaceDate = some 700 ∧
      s.receiver.breakReported = false ∧ s.receiver.openReported = false ∧
      s.listener.state = .quietWait) ∧
    ((inState .header s).matcher.state ≠ .called ∧ r.matcher.state = .called ∧
      r.listener.held = none ∧ r.matcher.incoming.isSome = true) ∧
    ((inState .freeAnswer s).active = none ∧ (f .sending).active = some (aMessage .sending) ∧
      (f .answering).active = some (aMessage .answering) ∧ (f .answering).matcher.state ≠ .due ∧
      (f .answering).table.countP OutRecord.isActive ≤ 1 ∧
      (f .answering).transmitter.attempt.bind Attempt.phase = some { t0 := 0, isFree := true }) ∧
    (after .breakEvent s).receiver.breakReported = true := by decide +kernel

theorem witness_line_open :
    let s := atSpace ready
    (after .lineOpen s).receiver.openReported = true ∧ s.tablesSafe ∧
      (match exec .lineOpen s with | .next t => t.receiver.lineOpen | _ => false) = true := by
  decide +kernel

/-! ### Witnesses: answers -/

theorem witness_phase_end :
    let s := inState .slottedAnswers ready
    let f := inState .freeAnswer ready
    let ph : Phase := { t0 := 0, isFree := false }
    let x := fun st : MessageState => { withMessage st s with
      transmitter := { s.transmitter with
        attempt := some { anAttempt (.finished false) with phase := some ph } } }
    (s.working = true ∧ s.listener.state = .slottedAnswers ∧ ready.listener.state ≠ .slottedAnswers) ∧
    (f.listener.startSeen = false ∧ f.receiver.assembler = .empty) ∧
    ((assembling false [] f).receiver.assembler = .assembling 100 false false [] ∧
      100 < f.listener.t0 + 3 * f.loader.params.charTime ∧
      after .freePhaseTimeout (assembling false [] f) = assembling false [] f) ∧
    s.transmitter.attempt.bind Attempt.phase = none ∧
    ((x .answering).matcher.state ≠ .due ∧ (x .answering).active = some (aMessage .answering) ∧
      (x .sending).active = some (aMessage .sending) ∧
      (x .answering).transmitter.attempt.bind Attempt.phase = some ph) := by decide +kernel

/-- R58: the one answer of a free phase, for an ENQUIRY, a STATUS and a refusal; a length of 2 with one code
behind it, a lone character and a damaged one are garbled. -/
theorem witness_free_answers :
    freeAnswer 4 ([1, 9, 1, 7].map aChar) = .valid ⟨9, 1⟩ (.answerBack [7]) ∧
    freeAnswer 5 ([2, 9, 1, 0, 0, 0, 0, 0].map aChar) =
      .valid ⟨9, 2⟩ (.status [1, 0, 0, 0, 0, 0]) ∧
    freeAnswer 4 ([5, 9].map aChar) = .valid ⟨9, 5⟩ .none ∧
    freeAnswer 4 ([1, 9, 2, 7].map aChar) = .garbled ∧ freeAnswer 4 [aChar 1] = .garbled ∧
    freeAnswer 4 [{ aChar 5 with damaged := true }, aChar 9] = .garbled ∧
    freeAnswer 4 [] = .silent := by decide

theorem witness_merge :
    (([⟨1, 1⟩, ⟨4, 3⟩] : List AnswerEntry).Pairwise fun a b => a.station < b.station) ∧
      mergeEntries [⟨4, 1⟩, ⟨2, 5⟩] [⟨1, 1⟩, ⟨4, 3⟩] = [⟨1, 1⟩, ⟨2, 5⟩, ⟨4, 1⟩] ∧
      slotEntry 4 [aChar 1, aChar 4] = some ⟨4, 1⟩ ∧ slotEntry 4 [aChar 1] = some ⟨4, 0⟩ := by decide

/-- Station 9 in slot 9: ACK delivers, CHECK retries, REFUSED does not, silence retries. -/
theorem witness_judgement :
    let p := ready.loader.params
    let p := { p with slots := 31 }
    let ph : Phase := { t0 := 0, isFree := false }
    let free : Phase := { t0 := 0, isFree := true }
    let heard := fun r : Code => [{ aChar r with start := 9 * p.slot }, { aChar 9 with start := 9 * p.slot }]
    let m := aMessage .answering
    judge p m ph (heard 1) = .settled .delivered .none ∧
    judge p m ph (heard 3) = .retry ∧ judge p m ph (heard 5) = .settled .undelivered .none ∧
    judge p m ph [] = .retry ∧
    judge p { m with retries := 2 } ph [] = .settled .undelivered .none ∧
    judge p { m with station := 31 } ph (heard 2) = .settled .delivered .none ∧
    judge p { m with station := 31, answers := [⟨3, 3⟩] } ph (heard 2) = .retry ∧
    judge p { m with station := 31, retries := 2, answers := [⟨3, 3⟩] } ph (heard 2) =
      .settled .partialDelivery .none ∧
    judge p { m with kind := 4 } free ([1, 9, 1, 7].map aChar) =
      .settled .answered (.answerBack [7]) ∧
    judge p { m with kind := 4 } free [] = .retry := by decide +kernel

/-! ### Witnesses: keyboard and composer -/

theorem witness_keys :
    let full := keysWait (List.replicate 6 .space) ready
    (ready.working = true ∧ ready.keyboard.isDown (.data 3) = false ∧ isQueued (.data 3) = true ∧
      ready.mech.motor.mode = .attended ∧ ready.keyboard.queue.length < 6) ∧
    6 ≤ full.keyboard.queue.length ∧
    (onMotor (fun d => { d with mode := .unattended }) ready).mech.motor.mode = .unattended ∧
    (after (.keyDown .shift 0) ready).keyboard.isDown .shift = true ∧
    ready.keyboard.isDown .shift = false := by decide +kernel

theorem witness_character_keys :
    let s := keysWait [.data 7] ready
    let full : Store := { base := 0, chars := List.replicate 1024 0 }
    (s.working = true ∧ s.mech.motor.state = .running ∧
      s.keyboard.queue = [{ key := .data 7, case := some .alpha }] ∧ s.store.chars.length ≤ 1024) ∧
    (s.composer.state = .composeLocal ∧ s.hasOpenText = false ∧ s.table.length < 8) ∧
    (withOpenText 1 s).hasOpenText = true ∧
    ((withOpenText 1 s).table.length = 1 ∧
      (withOpenText 1 s).newest.any (fun r => r.progress != r.length) = true) ∧
    ({ withOpenText 2 s with store := full } : State).store.chars.length + 1 > 1024 ∧
    (composing .text s).composer.state = .text ∧ (composing .kind s).composer.state = .kind ∧
    ({ composing .kind s with store := full } : State).store.chars.length + 1 > 1024 ∧
    formatCode .space = some 26 := by decide +kernel

/-- A full store whose one record is open and copied as far as it goes, with its run open: the run is closed and
a new record begins. -/
theorem witness_room_is_made :
    let s := onMotor (fun d => { d with state := .fault }) (keysWait [.data 7] ready)
    let s : State := { withOpenText 2 s with store := { base := 0, chars := List.replicate 1024 0 } }
    let s := s.onQueue fun q => { q with holder := .localRun, localRun := .opened }
    (s.mech.motor.state = .fault ∧ s.queueSafe ∧ s.hasOpenText = true ∧
      s.mech.punch.switch ≠ .off ∧ s.mech.queue.localRun = .opened ∧
      s.table.all (fun r => r.progress == r.length && !r.copied && 2 ≤ r.length) = true) ∧
    ((after .dataKey s).mech.queue.entries = [.runEnd] ∧
      (after .dataKey s).store.chars.length = 1024 ∧ (after .dataKey s).table.length = 1) := by
  decide +kernel

theorem witness_compose :
    let s := fun k c => composing c (keysWait [k] ready)
    let m := fun k c => withMessage .composing (s k c)
    ((s .call .composeLocal).working = true ∧ (s .call .composeLocal).mech.motor.state = .running ∧
      (s .call .composeLocal).hasOpenText = false ∧ (s .call .composeLocal).table.length < 8) ∧
    (List.replicate 8 ((withOpenText 2 ready).table)).flatten.length = 8 ∧
    (s (.data 9) .address).composer.tens = none ∧ (9 : Nat) < 10 ∧ 10 * 3 + 1 ≤ 31 ∧
    31 < 10 * 3 + 2 ∧
    (m .endKey .text).newest.any (fun r => r.message == some (aMessage .composing)) = true ∧
    (m .enq .kind).composer.state = .kind := by decide +kernel

/-- R148, R155: CALL closes the open local record; one copied as far as it goes leaves with its run. -/
theorem witness_call_over_local_text :
    let s := fun n => (withOpenText n (onMotor (fun d => { d with state := .fault }) (keysWait [.call] ready))).onQueue
      fun q => { q with holder := .localRun, localRun := .opened }
    (s 1).hasOpenText = true ∧ (s 1).copying.map OutRecord.progress = some 1 ∧
      (s 1).newest.map OutRecord.length = some 2 ∧ (s 1).table.dropLast = [] ∧
      (after .callKey (s 1)).table.map OutRecord.closed = [true, false] ∧
      (after .callKey (s 1)).mech.queue.localRun = .opened ∧
      (after .callKey (s 2)).table.map OutRecord.length = [0] ∧
      (after .callKey (s 2)).mech.queue.entries = [.runEnd] ∧
      (after .callKey (s 2)).mech.queue.holder = .none := by decide +kernel

theorem witness_cancel :
    let s := keysWait [.cancel] ready
    let late := keying .message (keyedChar 9 6 (.char 25)) (sending .closingEnd s)
    ((composing .text (withMessage .composing s)).composer.state ≠ .composeLocal ∧
      (withMessage .composing s).mech.queue.localRun = .none) ∧
    ((anAttempt .opening).stage = .opening ∧ [0, 9, 5, 1, 3].length = 5) ∧
    s.active = none ∧ (withMessage .contending s).active = some (aMessage .contending) ∧
    (withMessage .answering s).active = some (aMessage .answering) ∧
    (sending (.text 0 false) s).transmitter.attempt = some (anAttempt (.text 0 false)) ∧
    (sending .checkHigh s).transmitter.attempt = some (anAttempt .checkHigh) ∧
    (late.keyer.current = some (keyedChar 9 6 (.char 25)) ∧ Supply.char 25 ≠ .unasked) ∧
    ({ anAttempt .opening with
       stopped := some { comparePoint := 0, spaceDate := none } } : Attempt).stopped.isSome = true := by
  decide +kernel

/-- R55: a request in the stop element of the last text character is taken, one at the closing CONTROL is not. -/
theorem test_cancel_up_to_the_closing_pair :
    let s := fun c => keying .message c (sending .closingEnd (keysWait [.cancel] ready))
    (after .cancelKey (s (keyedChar 9 6 (.char 25)))).transmitter.attempt.map Attempt.cancel = some true ∧
      (after .cancelKey (s (keyedChar 25 1 .unasked))).transmitter.attempt.map Attempt.cancel =
        some false ∧
      Attempt.supplied [] [] 3 { anAttempt .closingEnd with cancel := true } = [3] := by decide +kernel

/-- R156: the discard of the record that is copied closes its local run, at CANCEL, CLEAR and UNATTENDED. -/
theorem witness_discard_of_an_open_run :
    let m := onMotor (fun d => { d with state := .fault })
      (composing .text (withMessage .composing (keysWait [.cancel] ready)))
    let o := m.onQueue fun q => { q with holder := .localRun, localRun := .opened }
    let x := m.onQueue fun q => { q with localRun := .suspended, copierWaits := true }
    let e := o.onListener fun l => { l with errors := 9 }
    (o.queueSafe ∧ o.mech.motor.state ≠ .running ∧ o.mech.punch.switch ≠ .off ∧
      o.mech.queue.printAt = 0 ∧ o.table.dropLast.all OutRecord.copied = true) ∧
    ((after .cancelKey o).mech.queue.entries = [.runEnd] ∧
      (after .cancelKey o).mech.queue.localRun = .none) ∧
    ((after .cancelKey x).mech.queue.entries = [] ∧
      (after .cancelKey x).mech.queue.localRun = .none ∧
      (after .cancelKey x).mech.queue.copierWaits = false) ∧
    ((after (.clear 0) e).mech.queue.held = 1 ∧ (after (.clear 0) e).listener.errors = 0 ∧
      (after (.clear 0) e).mech.motor.state ≠ .fault) ∧
    ((after (.modeEvent .unattended 0) o).mech.queue.holder = .none ∧
      (after (.modeEvent .unattended 0) o).table = []) := by decide +kernel

/-- R55: a request taken in the opening pair lets the header be supplied in full before CONTROL CANCEL. -/
theorem test_cancel_in_the_opening_pair :
    Attempt.supplied [0, 9, 5, 1, 3] [30, 8] 9 { anAttempt .opening with cancel := true } =
      [1, 0, 9, 5, 1, 3, 25, 3] := by decide +kernel

theorem witness_clear_and_mode :
    (ready.working = true ∧ ready.keyboard.isDown .clear = false ∧ ready.newest = none) ∧
    (ready.keyboard.setKey .clear true).isDown .clear = true ∧
    ((withMessage .composing ready).newest.any (fun r =>
        r.message == some (aMessage .composing)) = true ∧
      (withMessage .composing ready).mech.queue.localRun = .none ∧
      (withMessage .composing ready).table.dropLast = []) ∧
    ready.mech.motor.mode = .attended ∧
    (after (.modeEvent .unattended 0) (withMessage .composing ready)).table = [] := by decide +kernel

/-! ### Witnesses: the copy queue -/

theorem witness_notices :
    let s := ready.onQueue fun q => { q with requests := [.log, .delivery 9] }
    (ready.working = true ∧ ready.mech.queue.holder ≠ .receive ∧ ready.mech.queue.requests = []) ∧
    (ready.onQueue fun q => { q with holder := .receive }).mech.queue.holder = .receive ∧
    formNotice (some 5) s.log (.delivery 9) = none ∧
    (formNotice (some 5) s.log .log = some [28, 27, 29] ∧ s.mech.queue.requests = [.log, .delivery 9] ∧
      s.mech.queue.holder = .none ∧ s.queueSafe ∧ s.mech.motor.state ≠ .running ∧
      s.mech.punch.switch ≠ .off) ∧
    2048 < (entriesWait (List.replicate 2044 .runEnd) s).mech.queue.entries.length + 0 + 3 + 2 := by
  decide +kernel

def localOpen : State :=
  (withOpenText 0 ready).onQueue fun q => { q with holder := .localRun, localRun := .opened }

/-- The last character of a closed record. -/
def localLast : State :=
  { localOpen with
    table := [{ start := 0, length := 2, progress := 1, copied := false, body := .text false }] }

theorem witness_copier :
    let s := withOpenText 0 ready
    (s.working = true ∧ s.mech.queue.copierWaits = false ∧ s.copying.isSome = true ∧
      s.copying.any (fun r => (s.store.textOf r)[r.progress]? == some 30) = true) ∧
    (s.queueSafe ∧ s.mech.motor.state ≠ .running ∧ s.mech.punch.switch ≠ .off ∧
      s.mech.queue.holder = .none ∧ s.mech.queue.entries.length + 2 + 3 ≤ 2048) ∧
    (s.onQueue fun q => { q with watermark := .stopped }).mech.queue.watermark = .stopped := by
  decide +kernel

theorem witness_copier_open :
    localOpen.queueSafe ∧ localOpen.mech.queue.holder = .localRun ∧
      localOpen.mech.queue.entries.length + 2 ≤ 2048 := by decide +kernel

theorem witness_copier_last :
    localLast.queueSafe ∧
      localLast.copying.any (fun r => r.closed && r.progress + 1 == r.length) = true := by
  decide +kernel

/-- The same with the run suspended: a fresh run opens, takes the character and closes. -/
def localReopens : State :=
  localLast.onQueue fun q => { q with holder := .none, localRun := .suspended }

theorem witness_copier_reopens :
    localReopens.queueSafe ∧ localReopens.mech.queue.holder = .none ∧
      (after .localCopierWrite localReopens).mech.queue.entries =
        [.runStart, printChar 28, printChar 27, .char 8 false .print, .runEnd] := by decide +kernel

/-- R94: SPACE, 29 and 30 that complete a CONTROL pair leave the copier's case; a run in between ends the pair. -/
theorem test_copier_case_and_pairs :
    let k : Copier := { case := some .alpha, inPair := false }
    (k.after true 25).after true 29 = k ∧ k.after true 29 = { case := some .numeric, inPair := false } ∧
      ((k.after true 25).newRun).after true 29 = { case := some .numeric, inPair := false } := by decide

/-- A notice suspends the open local run; a copier's write is refused while the port is offered, and for want
of room. -/
theorem witness_notice_over_local_run :
    let s := localOpen.onQueue fun q => { q with requests := [.log] }
    let w := localOpen.onQueue fun q => { q with offering := true }
    (s.mech.queue.holder = .localRun ∧ s.queueSafe ∧ s.mech.motor.state ≠ .running ∧
      s.mech.queue.entries.length + 1 + 3 + 2 ≤ 2048) ∧
    ((after .noticeRunWrite s).mech.queue.localRun = .suspended ∧
      (after .noticeRunWrite s).mech.queue.held = 2) ∧
    (w.mech.queue.offering = true ∧ w.mech.queue.copierWaits = false ∧
      (after .localCopierWrite w).mech.queue.copierWaits = true) ∧
    2048 < (entriesWait (List.replicate 2047 .runEnd) localOpen).mech.queue.entries.length + 2 := by
  decide +kernel

theorem witness_receive_run_opens :
    let s := called .accepted ready
    (s.matcher.incoming = some (anIncoming .accepted) ∧ s.mech.queue.bounded ∧
      s.mech.pointersRest ∧ s.mech.motor.state ≠ .running ∧ s.mech.punch.switch ≠ .off ∧
      s.mech.queue.holder ≠ .receive ∧ s.mech.queue.localRun ≠ .opened) ∧
    (anIncoming .accepted).pendingGap = 0 ∧ (printChar 3).forPrint = true ∧
    (called .lost ready).matcher.incoming = some (anIncoming .lost) := by decide +kernel

/-- An open run of an empty queue with a pending gap. -/
def gapPends (gap : Nat) : State :=
  inRun { anIncoming .accepted with pendingGap := gap, lost := gap } ready

/-- The same with `n` entries before it. -/
def nearlyFull (n : Nat) : State :=
  (gapPends 3).onQueue fun q =>
    { q with entries := List.replicate n (.char 5 false .both), watermark := .stopped }

theorem witness_receive_run :
    (gapPends 2).mech.queue.holder = .receive ∧ (gapPends 2).mech.queue.bounded ∧
      (gapPends 2).mech.pointersRest ∧
      (gapPends 2).matcher.incoming.any (fun i => i.runOpen && i.pendingGap == 2 && i.toPrint) = true := by
  decide +kernel

/-- Two entries free: the GAP is written and the entry lost. -/
theorem witness_receive_run_nearly_full :
    (nearlyFull 2046).mech.queue.bounded ∧ (nearlyFull 2046).mech.pointersRest ∧
      (nearlyFull 2046).mech.queue.entries.length + 2 = 2048 ∧
      ((nearlyFull 2046).receiveWrite (printChar 3)).mech.queue.entries.length = 2047 := by
  decide +kernel

theorem witness_receive_run_full :
    (nearlyFull 2047).mech.queue.bounded ∧ (nearlyFull 2047).mech.pointersRest ∧
      2048 < (nearlyFull 2047).mech.queue.entries.length + 2 := by decide +kernel

/-- R75, R79: the close writes the pending gap, the notice 12 8 and the RUN-END. -/
theorem test_run_closes_with_gap_and_notice :
    let r := inRun { anIncoming .accepted with pendingGap := 2 } ready
    (r.closeReceiveRun (some 8)).mech.queue.entries =
      [.gap 2 .print, printChar 28, printChar 27, printChar 29, printChar 2, printChar 3,
        printChar 26, printChar 9, .runEnd] := by decide +kernel

/-! ### Witnesses: the log -/

/-- A full log whose second record is finished, and its number the counter's. -/
def fullLog : Log where
  records :=
    [{ number := 7, seq := 1, chars := 0, body := .incoming 12 1 none 0 },
     { number := 8, seq := 2, chars := 0, body := .outgoing none none (some .delivered) [] .none 0 0 },
     { number := 9, seq := 2, chars := 0, body := .outgoing none none none [] .none 0 0 }] ++
    (List.range 13).map fun n =>
      { number := 20 + n, seq := 3, chars := 0, body := .incoming 4 1 (some .complete) 0 }
  counter := 7

/-- R172: the oldest finished record leaves, and 8 is the first number free. -/
theorem witness_log :
    (fullLog.records.length ≤ 16 ∧ fullLog.counter < 256) ∧
    ((fullLog.create 5 (.incoming 3 1 none 0)).2 = 8 ∧
      (fullLog.create 5 (.incoming 3 1 none 0)).1.records.map LogRecord.number =
        [7, 9] ++ (List.range 13).map (20 + ·) ++ [8]) ∧
    (fullLog.records[0]?.map LogRecord.finished = some false ∧
      fullLog.records[2]?.map LogRecord.number = some 9) ∧
    ((fullLog.records.find? (·.number == 8)).isSome = true ∧
      (fullLog.records.find? (·.number == 99)) = none) := by decide +kernel

/-! ### Witnesses: the mechanism -/

/-- The printer is at rest at a known column, and the motor runs. -/
def printing (es : List Entry) : State :=
  onPrinter (fun r => { r with state := .idle, column := some 40, leftMargin := false })
    (entriesWait es running)

/-- Every kind of entry at the pointer; a CONTROL held; the wrap, and the wrap owed while its RETURN is in
flight; the establishing RETURN. -/
theorem witness_printer_takes :
    let r := fun e => (printing [e]).mech
    let ret := fun live => onPrinter (fun r => { r with
      head := some .space, atMargin := true, wrapOwed := true, carriage := .ret 9 live }) (printing [])
    ((r .runStart).printing = true ∧ (r .runStart).printer.internals = [] ∧
      (r .runStart).printer.head = none ∧ (r .runStart).queue.printEntry = some .runStart) ∧
    ([Entry.gap 2 .print, .char 8 true .print, .char 25 false .print].map
        fun e => (r e).queue.printEntry) =
      [some (.gap 2 .print), some (.char 8 true .print), some (.char 25 false .print)] ∧
    (onPrinter (fun r => { r with heldControl := true }) (printing [printChar 4])).mech.printer.heldControl
      = true ∧
    ((ret true).mech.printer.returning = true ∧ (ret false).mech.printer.returning = false ∧
      (ret true).mech.printer.wrapOwed = true ∧ ready.loader.params.overprint = false ∧
      (ret true).mech.printing = true) ∧
    (running.mech.printer.column = none ∧ running.mech.printer.returning = false) := by decide +kernel

/-- R109, R125: CONTROL and BELL ring and print nothing; R117: a strike at the margin calls for the wrap. -/
theorem test_bell_pair_and_wrap :
    let rung := ((printing [printChar 25, printChar 4, .runEnd]).mech.settle ready.loader.params 0)
    let full := onPrinter (fun r => { r with atMargin := true, column := some 72 })
      (printing [printChar 8])
    (rung.printer.bell = some 12000 ∧ rung.queue.printEntry = none ∧ rung.printer.state = .idle) ∧
    (full.settle.mech.printer.carriage = .ret 120000 true ∧
      full.settle.mech.printer.platen = .feed 9600 ∧
      full.settle.mech.printer.head = some (.strike 7)) := by decide +kernel

/-- R117: a wrap whose NEWLINE a stop withdrew is formed again in full when the stop is cancelled. -/
theorem test_wrap_is_formed_again :
    let s := onPrinter (fun r => { r with
      state := .active, atMargin := true, column := some 72, carriage := .ret 120000 true
      platen := .feed 90, internals := [.newline], head := some (.strike 7) })
      (printing [printChar 8])
    let gone := after (.paperOut 5) s
    let back := after (.paperIn 6) gone
    gone.mech.printer.stop = .paper ∧ gone.mech.printer.wrapOwed = true ∧
      back.mech.printer.stop = .none ∧ back.mech.printer.internals = [.ret, .newline] := by
  decide +kernel

/-- A strike of 8 waits at the head with the column known, and the count is one below its target. -/
def striking : State :=
  onPrinter (fun r => { r with
    state := .active, column := some 40, head := some (.strike 7), synced := true, wheel := 6 })
    (entriesWait [.char 8 false .print] running)

theorem witness_wheel :
    (ready.working = true ∧ ready.mech.printer.head = none ∧ ready.mech.printer.synced = false) ∧
    (striking.mech.motor.state = .running ∧ striking.mech.printer.head = some (.strike 7) ∧
      striking.mech.printer.busy = false ∧ striking.mech.printer.mismatches = 0 ∧
      striking.mech.printer.atMargin = false) ∧
    (let early := onPrinter (fun r => { r with wheel := 3 }) striking
     (after (.wheelPositionEvent false 5) early).mech.printer.head = some (.strike 7) ∧
      (after (.wheelPositionEvent false 5) early).mech.printer.wheel = 4) ∧
    (let faulty := onPrinter (fun r => { r with state := .fault, synced := true, mismatches := 3 }) ready
     (after (.wheelPositionEvent true 5) faulty).mech.printer.mismatches = 3) ∧
    (after (.wheelPositionEvent false 5) striking).mech.printer.column = some 41 ∧
    (after (.wheelPositionEvent false 5) striking).mech.printer.hammer =
      some { pulseEnd := 185, recoveryEnd := 1145, pulsing := true } := by decide +kernel

theorem witness_printer_holds :
    let fired := after (.wheelPositionEvent false 5) striking
    let eased := after .hammerPulseEnd fired
    (fired.working = true ∧ fired.mech.printer.platen = .strike ∧
      fired.mech.printer.carriage = .strike true ∧
      fired.mech.printer.hammer.any Hammer.pulsing = true) ∧
    (eased.mech.printer.carriage = .step 1625 ∧
      eased.mech.printer.hammer = some { pulseEnd := 185, recoveryEnd := 1145, pulsing := false }) ∧
    (onPrinter (fun r => { r with carriage := .strike false }) fired).mech.printer.carriage =
      .strike false ∧
    (onPrinter (fun r => { r with platen := .feed 9 }) ready).mech.printer.platen = .feed 9 ∧
    (onPrinter (fun r => { r with carriage := .ret 9 true }) ready).mech.printer.carriage =
      .ret 9 true ∧
    ready.mech.printer.carriage = .free ∧
    ready.ring.mech.printer.bell = some 12000 := by decide +kernel

theorem witness_paper :
    let s := fun st => onPrinter (fun r => { r with state := st }) ready
    ready.mech.printer.paper = true ∧ (after (.paperOut 0) ready).mech.printer.paper = false ∧
      ready.mech.printer.state = .off ∧ (s .active).mech.printer.busy = false ∧
      (onPrinter (fun r => { r with carriage := .step 9 }) (s .active)).mech.printer.busy = true ∧
      (after (.paperOut 0) ready).mech.printer.state = .paperOut ∧
      (s .fault).mech.printer.state = .fault := by decide +kernel

/-- A cycle whose pulse ends at 960: contacts at 959 and at 960. -/
theorem witness_punch_cycle :
    let c : PunchCycle := { row := 8, issued := 0, pulseEnd := 960, magnets := true }
    let s := fun st feed => onPunch (fun u => { u with state := st, cycle := some c, feed := feed }) ready
    (ready.working = true ∧ (s .cycling .none).mech.punch.cycle = some c ∧ c.magnets = true ∧
      (after .punchPulseEnd (s .cycling .none)).mech.punch.cycle = some { c with magnets := false }) ∧
    (max (s .cycling .none).now 959 < c.pulseEnd ∧ c.pulseEnd ≤ max (s .cycling .none).now 960) ∧
    ((s .cycling .continuous).mech.punch.feed = .continuous ∧
      (s .cycling .none).mech.punch.stop = false ∧ (s .cycling .none).mech.punch.tapePresent = true) ∧
    (s .tapeLowFinish .none).mech.punch.state = .tapeLowFinish := by decide +kernel

/-- An IDLE punch with the motor RUNNING: a code, a GAP, a RUN-START and a RUN-END at its pointer. -/
theorem witness_punch_takes :
    let s := fun e => onPunch (fun u => { u with state := .idle }) (entriesWait [e] running)
    (s .runEnd).mech.punching = true ∧ (s .runEnd).mech.queue.punchEntry = some .runEnd ∧
      (s .runStart).mech.queue.punchEntry = some .runStart ∧
      (s (.gap 2 .punch)).mech.queue.punchEntry = some (.gap 2 .punch) ∧
      ((s (.char 9 true .both)).settle.mech.punch.cycle.map PunchCycle.row = some 9 ∧
        (s (.gap 2 .punch)).settle.mech.punch.cycle.map PunchCycle.row = some 31 ∧
        (s .runStart).settle.mech.punch.inRun = true) := by decide +kernel

/-- Both takes have their next state: a queue at rest with the switch at RECEIVE, and one at OFF. -/
theorem witness_pointers :
    let s := fun pos => onPunch (fun u => { u with switch := pos })
      (entriesWait [.runStart, .char 8 false .both, .runEnd] ready)
    (s .receive).mech.pointersRest ∧ (s .receive).mech.punch.switch ≠ .off ∧
      (s .off).mech.pointersRest ∧ (s .off).mech.punch.switch = .off := by decide +kernel

/-- R137: a run that low tape let be finished ends in TAPE-OUT at OFF, and the flag stays. -/
theorem test_switch_off_ends_a_low_run :
    let s := onPunch (fun u => { u with state := .tapeLowFinish, inRun := true, tapeLow := true }) ready
    s.queueSafe ∧ s.mech.motor.state ≠ .running ∧
      (after (.punchSwitchEvent false false 5) s).mech.punch.state = .tapeOut ∧
      (after (.punchSwitchEvent false false 5) s).mech.punch.inRun = true := by decide +kernel

/-- R100, R101, R128: at OFF the punch pointer goes along, the entries passed leave and the flag follows; at
RECEIVE an entry stays until both are past it. -/
theorem test_takes_move_the_pointers :
    let m := (entriesWait [.runStart, .char 8 false .punch, .char 8 false .both] ready).mech
    let off := { m with punch := { m.punch with switch := .off } }.printTake
    (off.queue.entries = [.char 8 false .both] ∧ off.punch.inRun = true ∧ off.queue.punchAt = 0) ∧
      (m.printTake.queue.entries.length = 3 ∧ m.printTake.queue.printAt = 2) ∧
      (m.printTake.punchTake.queue.entries.length = 2 ∧ m.printTake.punchTake.punch.inRun = false) := by
  decide +kernel

theorem witness_tape :
    let gone := after (.tapeGone 0) ready
    let low := after (.tapeLow 0) (onPunch (fun u => { u with inRun := true }) ready)
    (ready.working = true ∧ ready.mech.punch.state = .off ∧ ready.mech.punch.tapeLow = false ∧
      ready.mech.punch.tapePresent = true) ∧
    (gone.mech.punch.tapePresent = false ∧ gone.mech.punch.state = .tapeOut) ∧
    (low.mech.punch.state = .tapeLowFinish ∧ low.mech.punch.cycle = none ∧
      low.mech.punch.tapeLow = true) ∧
    true ≠ gone.mech.punch.tapeLow ∧
    ((after (.tapeLow 0) ready).mech.punch.state = .tapeOut ∧
      (onPunch (fun u => { u with tapePresent := false }) low).mech.punch.state = .tapeLowFinish ∧
      (onPunch (fun u => { u with state := .cycling, tapePresent := false }) ready).mech.punch.state =
        .cycling) := by decide +kernel

theorem witness_punch_operated :
    let off := onPunch (fun u => { u with switch := .off }) ready
    (ready.working = true ∧ ready.keyboard.isDown .tapeFeed = false ∧
      ready.mech.motor.mode = .attended ∧ ready.mech.punch.switch ≠ .off ∧
      ready.mech.punch.feed = .none ∧ ready.mech.punch.state = .off) ∧
    (ready.keyboard.setKey .tapeFeed true).isDown .tapeFeed = true ∧
    switchPosition true false = ready.mech.punch.switch ∧
    switchPosition false true ≠ ready.mech.punch.switch ∧
    (ready.queueSafe ∧ ready.mech.motor.state ≠ .running ∧
      switchPosition false false ≠ ready.mech.punch.switch) ∧
    off.mech.punch.switch = .off := by decide +kernel

theorem witness_motor :
    let starting := onMotor (fun d => { d with state := .starting, runUp := some 60000 }) ready
    let slow := onMotor (fun d => { d with speedOk := false }) starting
    (starting.working = true ∧ starting.mech.motor.runUp = some 60000 ∧
      starting.mech.motor.speedOk = true ∧ slow.mech.motor.speedOk = false) ∧
    (running.mech.motor.state = .running ∧ false ≠ running.mech.motor.speedOk) ∧
    (after (.speedOkChange true 0) ready).mech.motor.state = .off ∧
    (onMotor (fun d => { d with idle := some 9 }) running).mech.motor.idle = some 9 ∧
    ready.mech.motor.idle = none := by decide +kernel

/-- What the printer and the punch can be in when the motor leaves RUNNING or reaches it. -/
theorem witness_motor_seen :
    let r : Printer := { ready.mech.printer with state := .active, stop := .motor }
    let u : Punch := { ready.mech.punch with feed := .waiting }
    (r.stop = .motor ∧ r.busy = false ∧ ({ r with carriage := .step 9 } : Printer).busy = true) ∧
    (u.state = .off ∧ u.inRun = false ∧ ({ u with inRun := true } : Punch).feed = .waiting) ∧
    r.motorReached.stop = .none ∧ ({ r with paper := false } : Printer).motorReached.stop = .paper ∧
    (u.motorReached ready.loader.params 0).state = .cycling := by decide +kernel

/-- Demand by an entry, by feeding, and none; quiet; a pending stop. -/
theorem witness_settle :
    let p := ready.loader.params
    let m := (entriesWait [.char 8 false .print] ready).mech
    let idle := (onPunch (fun u => { u with state := .idle })
      (onPrinter (fun r => { r with state := .idle }) running)).mech
    (m.motor.state = .off ∧ (m.settle p 0).queue.printEntry.isSome = true ∧
      (m.settle p 0).printer.state = .off) ∧
    ((onPunch (fun u => { u with feed := .waiting }) ready).mech.settle p 0).punch.feed = .waiting ∧
    ((ready.mech.settle p 0).queue.printEntry = none ∧ (ready.mech.settle p 0).queue.punchEntry = none ∧
      (ready.mech.settle p 0).punch.feed = .none) ∧
    ((idle.settle p 0).printer.state = .idle ∧ (idle.settle p 0).punch.state = .idle ∧
      (idle.settle p 0).queue.holder ≠ .receive ∧
      (idle.settle p 0).motor.idle = some (120000 * 60)) ∧
    (onPrinter (fun r => { r with state := .active, stop := .motor, carriage := .step 9 })
      ready).mech.printer.stop ≠ .none := by decide +kernel

/-! ### Witnesses: lamps and pins -/

/-- A start unit is keyed, and a row of 19 is being punched. -/
theorem witness_lamps_and_pins :
    let k : State := { ready with
      keyer := { holder := .message, current := some (keyedChar 25 0 .unasked), spaceSince := some 9 } }
    let c : PunchCycle := { row := 19, issued := 0, pulseEnd := 960, magnets := true }
    let u := onPunch (fun u => { u with state := .cycling, cycle := some c }) ready
    (k.keyerSafe ∧ k.keyer.current = some (keyedChar 25 0 .unasked) ∧ k.pins.keyer = true) ∧
    (u.mech.punch.cycle = some c ∧ u.pins.punch = [true, false, false, true, true] ∧
      ready.mech.punch.cycle = none) ∧
    (k.lamps.sending = true ∧ ready.lamps.line = true) := by decide +kernel

end Sys2Proof.Tests
end

