-- ==== Sys2Proof/Proofs/PartyLine.lean ====
section
/-! The check addition over a whole sequence of symbols, and the six status characters. -/

namespace Sys2Proof.Machine

open Sys2Proof

/-! ### The check addition (R7) -/

theorem addSymbol_of_le {acc symbol : Nat} (h : acc + symbol ≤ 1023) :
    addSymbol acc symbol = acc + symbol := if_pos h

theorem addSymbol_of_gt {acc symbol : Nat} (h : 1023 < acc + symbol) :
    addSymbol acc symbol = acc + symbol - 1024 + 1 := if_neg (Nat.not_le.mpr h)

/-- Adding 1023 to a nonzero accumulator leaves it: 1023 behaves as zero. -/
theorem addSymbol_full {acc : Nat} (h : acc ≤ 1023) :
    addSymbol acc 1023 = if acc = 0 then 1023 else acc := by
  split
  · simp [‹acc = 0›, addSymbol]
  · rw [addSymbol_of_gt (by omega)]; omega

/-- `addSymbol_spec` over a sequence: the range, the residue and the zero test go through the sum alone. -/
theorem foldl_addSymbol_spec (xs : List Nat) (hxs : ∀ x ∈ xs, x ≤ 1023) (acc : Nat) (ha : acc ≤ 1023) :
    xs.foldl addSymbol acc ≤ 1023 ∧ xs.foldl addSymbol acc % 1023 = (acc + xs.sum) % 1023 ∧
      (xs.foldl addSymbol acc = 0 ↔ acc + xs.sum = 0) := by
  induction xs generalizing acc with
  | nil => simp [ha]
  | cons x xs ih =>
    simp only [List.mem_cons, forall_eq_or_imp] at hxs
    obtain ⟨hx, hxs⟩ := hxs
    obtain ⟨hle, hmod, hzero⟩ := addSymbol_spec acc x ha hx
    obtain ⟨ihle, ihmod, ihzero⟩ := ih hxs (addSymbol acc x) hle
    simp only [List.foldl_cons, List.sum_cons]
    omega

/-- 0 to 1023 holds two values of one residue modulo 1023 only for 0 and 1023, which the zero test parts. -/
theorem foldl_addSymbol_eq_of_sum_eq {xs ys : List Nat} (hxs : ∀ x ∈ xs, x ≤ 1023)
    (hys : ∀ y ∈ ys, y ≤ 1023) (hsum : xs.sum = ys.sum) {acc : Nat} (ha : acc ≤ 1023) :
    xs.foldl addSymbol acc = ys.foldl addSymbol acc := by
  obtain ⟨xle, xmod, xzero⟩ := foldl_addSymbol_spec xs hxs acc ha
  obtain ⟨yle, ymod, yzero⟩ := foldl_addSymbol_spec ys hys acc ha
  rw [hsum] at xmod xzero
  omega

/-- Settles O21: the addition by its two branches, the dependence on the sum by `foldl_addSymbol_spec`. -/
theorem checkAdditionCarriesRound : Obligations.CheckAdditionCarriesRound := by
  refine ⟨fun acc symbol ha hs => ?_, fun acc ha => ⟨addSymbol_of_le ha, addSymbol_full ha⟩,
    fun _ _ _ => rfl, fun xs ys hxs hys hsum => foldl_addSymbol_eq_of_sum_eq hxs hys hsum (by omega)⟩
  obtain ⟨hle, -, hzero⟩ := addSymbol_spec acc symbol ha hs
  exact ⟨addSymbol_of_le, fun h => ⟨addSymbol_of_gt h, by omega⟩, hle, by omega⟩

/-! ### The status characters (R14) -/

theorem toCode_val (n : Nat) : (toCode n).val = n % 32 := rfl

/-- An error count of up to two five-bit characters is read back from its quotient and its rest. -/
theorem toCode_div_mod {n : Nat} (h : n < 1024) :
    32 * (toCode (n / 32)).val + (toCode (n % 32)).val = n := by
  simp only [toCode_val]
  omega

/-- Settles O39, each character by its own rows of R14. -/
theorem statusReportsTheStation : Obligations.StatusReportsTheStation := by
  intro s
  dsimp only
  refine ⟨_, _, _, _, _, _, rfl, ?attended, ?unattended, ?motorFault, ?motorSound, ?held, ?errors⟩
  case attended => intro h; simp [h]
  case unattended => intro h; simp [h]
  case motorFault => intro h; simp [h]
  case motorSound =>
    intro hm
    refine ⟨?printerFault, ?paperOut, ?printerReady, ?punchFault, ?switch, ?tape, ?punchReady⟩
    case printerFault | paperOut | punchFault => intro h; simp [hm, h]
    case printerReady =>
      intro hf hp
      cases h : s.mech.printer.state with
      | fault => exact absurd h hf
      | paperOut => exact absurd h hp
      | off | idle | active => simp [hm]
    case switch => intro hf hs; simp [hm, hf, hs]
    case tape => rintro hs (h | h) <;> simp [hm, hs, h]
    case punchReady => rintro hs (h | h | h) <;> simp [hm, hs, h]
  case held => exact Nat.mod_eq_of_lt (by omega)
  case errors => exact fun h => toCode_div_mod (by omega)

end Sys2Proof.Machine
end

section
/-! The judgement of an answer phase: how one answer is judged, how the merged list is judged, and which of
the two a message goes to. -/

namespace Sys2Proof.Machine

open Sys2Proof

/-! ### One answer (R60, R62, R63) -/

/-- How R60 and R62 alike judge the response of the one answer that counts: `taken` at ACK and HELD. -/
def answerVerdict (p : Params) (m : Message) (taken : Verdict) (response : Code) : Verdict :=
  if response = 1 ∨ response = 2 then taken
  else if response = 5 then .settled .undelivered .none
  else retryOr p m

/-- R60 and R62 by the response: taken at ACK and HELD, undelivered at REFUSED, and tried again otherwise. -/
theorem answerVerdict_rows (p : Params) (m : Message) (taken : Verdict) (r : Code) :
    (r = 1 ∨ r = 2 → answerVerdict p m taken r = taken) ∧
    (r = 5 → answerVerdict p m taken r = .settled .undelivered .none) ∧
    (r = 0 ∨ r = 3 ∨ r = 4 → answerVerdict p m taken r = retryOr p m) := by
  refine ⟨fun h => if_pos h, ?refused, ?failed⟩
  case refused => rintro rfl; rfl
  case failed => rintro (rfl | rfl | rfl) <;> rfl

theorem judgeIndividual_of_find {m : Message} {entries : List AnswerEntry} {e : AnswerEntry} (p : Params)
    (h : entries.find? (·.station == m.station) = some e) :
    judgeIndividual p m entries = answerVerdict p m (.settled .delivered .none) e.response := by
  simp only [judgeIndividual, h, answerVerdict]

theorem judgeIndividual_of_no_entry {m : Message} {entries : List AnswerEntry} (p : Params)
    (h : entries.find? (·.station == m.station) = none) : judgeIndividual p m entries = retryOr p m := by
  simp only [judgeIndividual, h]

theorem judgeFree_of_valid {m : Message} {heard : List RxChar} {e : AnswerEntry} {content : Content}
    (p : Params) (h : freeAnswer m.kind heard = .valid e content) :
    judgeFree p m heard = answerVerdict p m (.settled .answered content) e.response := by
  simp only [judgeFree, h, answerVerdict]

theorem judgeFree_of_not_valid {m : Message} {heard : List RxChar} (p : Params)
    (h : freeAnswer m.kind heard = .silent ∨ freeAnswer m.kind heard = .garbled) :
    judgeFree p m heard = retryOr p m := by
  rcases h with h | h <;> simp only [judgeFree, h]

/-! ### The merged list (R61, R63) -/

/-- R61 with the list's answers read as propositions: a failed entry (CHECK or OVERRUN) asks for a retry as
long as one is left, and then only parts a partial delivery from a whole one. -/
theorem judgeGroup_eq (p : Params) (m : Message) (list : List AnswerEntry) :
    judgeGroup p m list =
      if (∃ e ∈ list, e.response = 3 ∨ e.response = 4) ∧ m.retries < p.retryLimit then .retry
      else if ∃ e ∈ list, e.response = 1 ∨ e.response = 2 then
        if ∃ e ∈ list, e.response = 3 ∨ e.response = 4 then .settled .partialDelivery .none
        else .settled .delivered .none
      else .settled .undelivered .none := by
  have any_iff (a b : Code) : (list.any fun e => e.response == a || e.response == b) = true ↔
      ∃ e ∈ list, e.response = a ∨ e.response = b := by simp
  simp only [judgeGroup, Bool.and_eq_true, Bool.not_eq_true', ← Bool.not_eq_true, any_iff,
    decide_eq_true_eq]
  by_cases taken : ∃ e ∈ list, e.response = 1 ∨ e.response = 2
  · simp only [taken, true_and, if_true, ite_not]
  · simp only [taken, false_and, if_false]

/-! ### Which of them a message goes to -/

theorem isTextKind_iff (k : Code) : isTextKind k = true ↔ k = 1 ∨ k = 2 ∨ k = 3 := by
  revert k
  decide

theorem isTextKind_of_request {k : Code} (h : k = 4 ∨ k = 5) : isTextKind k = false := by
  rcases h with rfl | rfl <;> rfl

theorem Message.individual_iff (m : Message) : m.individual = true ↔ m.group = 0 ∧ m.station ≠ 31 := by
  simp [Message.individual]

variable {m : Message} (p : Params) (ph : Phase) (heard : List RxChar)

theorem judge_of_individual_text (ht : isTextKind m.kind = true) (hi : m.individual = true) :
    judge p m ph heard = judgeIndividual p m (phaseEntries p m ph heard) := by
  simp [judge, ht, hi]

theorem judge_of_group_text (ht : isTextKind m.kind = true) (hi : m.individual = false) :
    judge p m ph heard = judgeGroup p m (mergeEntries (phaseEntries p m ph heard) m.answers) := by
  simp [judge, ht, hi]

theorem judge_of_slotted_request (ht : isTextKind m.kind = false) (hf : ph.isFree = false) :
    judge p m ph heard = judgeGroup p m (mergeEntries (phaseEntries p m ph heard) m.answers) := by
  simp [judge, ht, hf]

theorem judge_of_free_request (ht : isTextKind m.kind = false) (hf : ph.isFree = true) :
    judge p m ph heard = judgeFree p m heard := by
  simp [judge, ht, hf]

end Sys2Proof.Machine
end

section
/-! The judgement follows the answers: each kind of message by its own rule of R60 to R62. -/

namespace Sys2Proof.Machine

open Sys2Proof

/-- Settles O44: the judge a message goes to is fixed by its kind, destination and phase; the rows are that
judge's own. -/
theorem judgementFollowsTheAnswers : Obligations.JudgementFollowsTheAnswers := by
  intro p m ph heard
  dsimp only
  rw [← isTextKind_iff, ← Message.individual_iff]
  refine ⟨?individual, ?group, ?free⟩
  case individual =>
    intro ht hi
    rw [judge_of_individual_text p ph heard ht hi]
    refine ⟨fun e he => ?_, judgeIndividual_of_no_entry p⟩
    rw [judgeIndividual_of_find p he]
    exact answerVerdict_rows p m _ e.response
  case group =>
    intro h
    have hjudge : judge p m ph heard =
        judgeGroup p m (mergeEntries (phaseEntries p m ph heard) m.answers) := by
      rcases h with ⟨ht, hi⟩ | ⟨hk, hf⟩
      · exact judge_of_group_text p ph heard ht (Bool.eq_false_of_not_eq_true hi)
      · exact judge_of_slotted_request p ph heard (isTextKind_of_request hk) hf
    rw [hjudge, judgeGroup_eq]
    refine ⟨?retry, ?delivered, ?partialDelivery, ?spent, ?silent⟩
    case retry => intro hf hr; rw [if_pos ⟨hf, hr⟩]
    case delivered => intro hf ht; rw [if_neg fun h => hf h.1, if_pos ht, if_neg hf]
    case partialDelivery =>
      intro hf hr ht
      rw [if_neg fun h => Nat.not_lt.mpr hr h.2, if_pos ht, if_pos hf]
    case spent => intro _ hr ht; rw [if_neg fun h => Nat.not_lt.mpr hr h.2, if_neg ht]
    case silent => intro hf ht; rw [if_neg fun h => hf h.1, if_neg ht]
  case free =>
    intro hk hf
    rw [judge_of_free_request p ph heard (isTextKind_of_request hk) hf]
    refine ⟨fun e content he => ?_, judgeFree_of_not_valid p⟩
    rw [judgeFree_of_valid p he]
    obtain ⟨htaken, hrefused, hfailed⟩ := answerVerdict_rows p m (.settled .answered content) e.response
    exact ⟨htaken, hrefused, fun h => hfailed (.inr h)⟩

end Sys2Proof.Machine
end

section
/-! Who is called, what is refused, and the disposition of a matched header (R67 to R71). -/

namespace Sys2Proof.Machine

open Sys2Proof

/-! ### Is this station called? (R67, R68) -/

/-- A code masks a number out exactly when it is clear in each of its five places where the code has a 1:
the code's higher places are clear. -/
theorem and_code_eq_zero_iff (n : Nat) (mask : Code) :
    n &&& mask.val = 0 ↔ ∀ place < 5, mask.val.testBit place = true → n.testBit place = false := by
  constructor
  · intro h place _ hmask
    simpa [hmask] using congrArg (·.testBit place) h
  · intro h
    refine Nat.eq_of_testBit_eq fun place => ?_
    rw [Nat.testBit_and, Nat.zero_testBit]
    cases hmask : mask.val.testBit place with
    | false => exact Bool.and_false _
    | true =>
      have hplace : place < 5 := (Nat.pow_lt_pow_iff_right (a := 2) (by decide)).mp
        ((Nat.ge_two_pow_of_testBit hmask).trans_lt mask.isLt)
      rw [h place hplace hmask, Bool.false_and]

theorem and_code_ne_zero_iff (n : Nat) (mask : Code) :
    n &&& mask.val ≠ 0 ↔ ∃ place < 5, n.testBit place = true ∧ mask.val.testBit place = true := by
  rw [ne_eq, and_code_eq_zero_iff]
  push Not
  exact exists_congr fun place => and_congr_right fun _ => by rw [Bool.ne_false_iff, and_comm]

theorem stationMatches_iff (own mask station : Code) : stationMatches own mask station = true ↔
    station = 31 ∨ ∀ place < 5, mask.val.testBit place = true →
      own.val.testBit place = station.val.testBit place := by
  simp only [stationMatches, Bool.or_eq_true, beq_iff_eq, and_code_eq_zero_iff, Nat.testBit_xor,
    bne_eq_false_iff_eq]

theorem Loader.matches_iff {l : Loader} {own : Code} (h : Header) (hown : l.params.own = some own) :
    l.matches h = true ↔
      l.standing = .configured ∧ stationMatches own l.params.careMask h.station = true ∧
      (h.group = 0 ∨ ∃ place < 5, h.group.val.testBit place = true ∧
        l.params.groupSet.val.testBit place = true) ∧
      h.originator ≠ own := by
  simp only [Loader.matches, hown, Bool.and_eq_true, Bool.or_eq_true, beq_iff_eq, bne_iff_ne,
    and_code_ne_zero_iff, and_assoc]

/-! ### What is refused (R71) -/

theorem Mech.refuses_punch_iff (m : Mech) : m.refuses 3 = true ↔
    m.punch.switch ≠ .receive ∨ m.punch.state = .fault ∨ m.motor.state = .fault := by
  simp [Mech.refuses, or_assoc]

theorem Mech.refuses_print_iff (m : Mech) {base : Code} (h : base ≠ 3) :
    m.refuses base = true ↔ m.printer.state = .fault ∨ m.motor.state = .fault := by
  simp [Mech.refuses, h]

/-! ### The disposition (R69, R70, R72) -/

/-- A valid header carries one of the five base kinds (R2, R3). -/
theorem Header.one_le_baseKind {h : Header} (hv : h.valid = true) : 1 ≤ (baseKind h.kind).val := by
  simp only [Header.valid, Bool.and_eq_true, Bool.or_eq_true, decide_eq_true_eq] at hv
  simp only [baseKind]
  split
  · rw [toCode_val]; omega
  · omega

/-- Of the text messages, the duplicates are the retries of the number last answered (R70). -/
theorem Matcher.isDuplicate_iff (m : Matcher) {h : Header} (hv : h.valid = true)
    (htext : (baseKind h.kind).val ≤ 3) :
    m.isDuplicate h = true ↔ 17 ≤ h.kind.val ∧ ∃ e, m.peer h.originator = some e ∧ e.seq = h.seq := by
  have hkind : isTextKind (baseKind h.kind) = true := by
    simp [isTextKind, Header.one_le_baseKind hv, htext]
  simp [Matcher.isDuplicate, hkind, isRetry, Option.any_eq_true]

/-- The two entries a receive run needs, beside the entry kept for an open run (R72, R89). -/
theorem CopyQueue.two_le_freeForOther_iff (q : CopyQueue) :
    2 ≤ q.freeForOther ↔ q.entries.length + 2 + (if q.holder = .none then 0 else 1) ≤ 2048 := by
  simp only [CopyQueue.freeForOther, CopyQueue.runOpen, CopyQueue.free, Config.copyCapacity, bne_iff_ne,
    ne_eq, ite_not]
  split <;> omega

/-- A text message is tried as a duplicate, then for refusal, then for room. -/
theorem State.disposition_of_text (s : State) {h : Header} (htext : (baseKind h.kind).val ≤ 3) :
    s.disposition h =
      if s.matcher.isDuplicate h = true then .duplicate
      else if s.mech.refuses (baseKind h.kind) = true then .refused
      else if 2 ≤ s.mech.queue.freeForOther then .accepted else .lost := by
  have h4 : baseKind h.kind ≠ 4 := by intro h; simp [h] at htext
  have h5 : baseKind h.kind ≠ 5 := by intro h; simp [h] at htext
  simp only [State.disposition, if_neg h4, if_neg h5]

/-- Settles O37: the masks by their places, and for a text message the three tests of R69 in turn. -/
theorem callsAreMatchedAndDisposed : Obligations.CallsAreMatchedAndDisposed := by
  refine ⟨stationMatches_iff, fun l h own hown => Loader.matches_iff h hown, fun m base hbase =>
    m.refuses_print_iff (by rcases hbase with rfl | rfl <;> decide), Mech.refuses_punch_iff, ?_⟩
  intro s h hv
  dsimp only
  rw [← CopyQueue.two_le_freeForOther_iff]
  refine ⟨?enquiry, ?status, ?duplicate, ?refused, ?accepted, ?lost⟩
  case enquiry => intro h4; simp [State.disposition, h4]
  case status => intro h5; simp [State.disposition, h5]
  all_goals
    intro htext
    rw [← Matcher.isDuplicate_iff _ hv htext, State.disposition_of_text s htext]
  case duplicate => intro hdup; rw [if_pos hdup]
  case refused => intro hdup hrefuses; rw [if_neg hdup, if_pos hrefuses]
  case accepted =>
    intro hdup hrefuses hroom
    rw [if_neg hdup, if_neg (Bool.eq_false_iff.mp hrefuses), if_pos hroom]
  case lost =>
    intro hdup hrefuses hroom
    rw [if_neg hdup, if_neg (Bool.eq_false_iff.mp hrefuses), if_neg hroom]

end Sys2Proof.Machine
end

section
/-! What a command can do: `exec` read once, as the cases every statement over all commands goes through. -/

namespace Sys2Proof.Machine

open Sys2Proof

/-- What the command `c` does at the mechanism `m`, before the mechanism settles. -/
inductive MechAct (p : Params) (now : Ticks) (m : Mech) : Instr → Mech → Prop where
  | wheel (index : Bool) (t : Ticks) :
      MechAct p now m (.wheelPositionEvent index t) (m.wheelEvent p now index)
  | hammerPulse (h : Hammer) : m.printer.hammer = some h →
      MechAct p now m .hammerPulseEnd { m with printer := m.printer.pulseEnd p h }
  | hammerRecovery :
      MechAct p now m .hammerRecoveryEnd { m with printer := { m.printer with hammer := none } }
  | carriageStep (t : Ticks) : m.printer.carriage = .step t →
      MechAct p now m .carriageStepEnd { m with printer := { m.printer with carriage := .free } }
  | lineTime :
      MechAct p now m .lineTimeEnd { m with printer := { m.printer with platen := .free } }
  | marginContact (t : Ticks) :
      MechAct p now m (.leftMarginContact t) { m with printer := m.printer.contact }
  | returnTimeout : MechAct p now m .returnTimeout { m with printer := m.printer.returnExpired }
  | paperOut (t : Ticks) : MechAct p now m (.paperOut t) { m with printer := m.printer.paperGone }
  | paperIn (t : Ticks) : MechAct p now m (.paperIn t)
      { m with printer := m.printer.paperBack (m.motor.state == .running) }
  | punchSwitch (a b : Bool) (t : Ticks) : MechAct p now m (.punchSwitchEvent a b t)
      (Mech.rest { m with punch := m.punch.setSwitch (switchPosition a b) })
  | punchDone (t : Ticks) (c : PunchCycle) : m.punch.cycle = some c →
      MechAct p now m (.punchDone t) { m with punch := m.punch.complete p now }
  | punchTimeout (c : PunchCycle) : m.punch.cycle = some c →
      MechAct p now m .punchCycleTimeout { m with punch := m.punch.timedOut }
  | tapeLow (t : Ticks) : MechAct p now m (.tapeLow t) { m with punch := m.punch.lowTape }
  | tapeGone (t : Ticks) : MechAct p now m (.tapeGone t) { m with punch := m.punch.goneTape }
  | tapeReplaced (t : Ticks) : MechAct p now m (.tapeReplaced t)
      { m with punch := m.punch.newTape (m.motor.state == .running) }
  | runUp (u : Ticks) : m.motor.runUp = some u → MechAct p now m .runUpExpiry (m.runUpExpired p now)
  | speedOk (ok : Bool) (t : Ticks) : MechAct p now m (.speedOkChange ok t) (m.speedChanged ok)
  | idleTimer (u : Ticks) : m.motor.idle = some u →
      MechAct p now m .idleTimerExpiry (m.motorLeaves .off)

/-- The key whose down event a command is (section 8.1). -/
def downKeyOf : Instr → Option Key
  | .keyDown k _ => some k
  | .clear _ => some .clear
  | .breakDown _ => some .brk
  | .tapeFeedDown _ => some .tapeFeed
  | _ => none

/-- The key whose up event a command is (section 8.1). -/
def upKeyOf : Instr → Option Key
  | .keyUp k _ => some k
  | .breakUp _ => some .brk
  | .tapeFeedUp _ => some .tapeFeed
  | _ => none

/-- What the composer does with the key a command takes from the key queue (R141). -/
def keyActionOf : Instr → Option (QueuedKey → State → State)
  | .dataKey => some State.takeData
  | .formatKey => some State.takeFormat
  | .callKey => some fun _ s => s.callTaken
  | .endKey => some fun _ s => s.endTaken
  | .cancelKey => some fun _ s => s.cancelTaken
  | .enqKey => some fun _ s => s.requestTaken 4
  | .statusKey => some fun _ s => s.requestTaken 5
  | .hereIsKey => some fun _ s => s.hereIsTaken
  | .bellKey => some fun _ s => s.bellTaken
  | .logKey => some fun _ s => s.logTaken
  | _ => none

/-- What the command `c` does, where it arises: `s` is the state with its clock at the command's
instant, and the last argument what the command leaves. START and CONFIG_READ_END, which act on a part that does
not work, stand apart. -/
inductive Acts : Instr → State → State → Prop where
  | mech {c : Instr} {s : State} (m : Mech) : MechAct s.loader.params s.now s.mech c m →
      Acts c s (State.settle { s with mech := m })
  | bellPulseEnd {s : State} : Acts .bellPulseEnd s
      { s with mech := { s.mech with printer := { s.mech.printer with bell := none } } }
  | punchPulseEnd {s : State} (c : PunchCycle) : s.mech.punch.cycle = some c → Acts .punchPulseEnd s
      { s with mech := { s.mech with
          punch := { s.mech.punch with cycle := some { c with magnets := false } } } }
  | tapeSensor {s : State} (low : Bool) (t : Ticks) : s.mech.punch.tapePresent = false →
      Acts (.tapeSensorFlagChange low t) s
        { s with mech := { s.mech with punch := { s.mech.punch with tapeLow := low } } }
  | shortRun {s : State} (count : Nat) (date : Ticks) :
      Acts (.filteredLevelChange count date) s (s.runTaken count date)
  | level {s : State} (count : Nat) (date : Ticks) :
      Acts (.filteredLevelChange count date) s ((s.runTaken count date).levelChanged date)
  | startCentre {s : State} (start : Ticks) (paused : Bool) :
      Acts .startCentreSample s (s.startCentre start paused)
  | dataReading {s : State} (start : Ticks) (paused : Bool) (bits : List Bool) :
      Acts .dataUnitSample s (s.dataReading start paused bits)
  | stopReading {s : State} (start : Ticks) (paused : Bool) (bits : List Bool) :
      Acts .stopSample s (s.stopReading start paused bits)
  | quiet {s : State} (date : Ticks) : Acts .markLastingQ s (s.quietReached date)
  | breakEvent {s : State} (t : Ticks) : Acts .breakEvent s (s.breakReached t)
  | lineOpen {s : State} (t : Ticks) : Acts .lineOpen s (s.lineOpened t)
  | startAnswer {s : State} (a : Answer) : s.matcher.state = .due → s.matcher.answer = some a →
      Acts .answerStartInstant s (s.startAnswer a)
  | slottedEnd {s : State} (t : Ticks) : Acts .slottedPhaseEnd s (s.phaseOver t .idle).settle
  | freeTimeout {s : State} (t : Ticks) : Acts .freePhaseTimeout s (s.phaseOver t .idle).settle
  | attemptBegin {s : State} : s.keyer.holder = .none → Acts .attemptBegin s s.beginAttempt
  | unitBoundary {s : State} (c : KeyedChar) (t : Ticks) : s.keyer.current = some c →
      Acts .keyerUnitBoundary s { s with keyer := s.keyer.setUnit c (c.unit + 1) t }
  | supplyPoint {s : State} (c : KeyedChar) : s.keyer.current = some c →
      Acts .keyerSupplyPoint s (s.supplyPoint c)
  | stopElementEnd {s : State} (c : KeyedChar) (t : Ticks) : s.keyer.current = some c →
      Acts .keyerStopElementEnd s (s.stopElementOver c.next t).settle
  | echoMismatch {s : State} (c : KeyedChar) (t : Ticks) : s.keyer.current = some c →
      Acts (.echoMismatch t) s (s.mismatch t).settle
  | breakLimit {s : State} (since : Ticks) : s.keyer.spaceSince = some since →
      Acts .breakLimit s s.spaceLimit.settle
  | keyDown {c : Instr} {s : State} (k : Key) : downKeyOf c = some k → Acts c s (s.keyDownEvent k)
  | keyUp {c : Instr} {s : State} (k : Key) : upKeyOf c = some k → Acts c s (s.keyUpEvent k)
  | mode {s : State} (m : Mode) (t : Ticks) : Acts (.modeEvent m t) s (s.modeChanged m).settle
  | takeKey {c : Instr} {s : State} (act : QueuedKey → State → State) (k : QueuedKey)
      (rest : List QueuedKey) : keyActionOf c = some act → s.keyboard.queue = k :: rest →
      Acts c s (act k { s with keyboard := { s.keyboard with queue := rest } }).settle
  | copierWrite {s : State} : Acts .localCopierWrite s s.copierWrites
  | noticeWrite {s : State} : Acts .noticeRunWrite s s.testNotice.settle

/-! ### Every command by its cases -/

@[simp] theorem State.at_self (s : State) : s.at s.now = s := by simp [State.at]

@[simp] theorem State.at_working (s : State) (t : Ticks) : (s.at t).working = s.working := rfl

/-- The state `c` leaves is the one it found, or that of its effect at its instant. -/
def ActsOrStays (c : Instr) (s t : State) : Prop := t = s ∨ s.working = true ∧ ∃ u, Acts c (s.at u) t

/-- A command that arises has its effect; one that cannot arise changes nothing (assumptions 2, 3). -/
theorem perform_cases {c : Instr} {s t : State} {arises : Bool} {effect : State → State}
    (h : perform s arises effect = .next t)
    (acts : arises = true → ∃ u, Acts c (s.at u) (effect s)) : ActsOrStays c s t := by
  simp only [perform, Host.Outcome.next.injEq] at h
  subst h
  split
  · rename_i hw
    obtain ⟨hw, ha⟩ := Bool.and_eq_true_iff.mp hw
    exact .inr ⟨hw, acts ha⟩
  · exact .inl rfl

theorem perform_none {c : Instr} {s t : State} {effect : State → State}
    (h : perform s false effect = .next t) : ActsOrStays c s t :=
  perform_cases h (fun h => nomatch h)

theorem keyAtHead_queue {s : State} {takes : Key → Bool} (h : s.keyAtHead takes = true) :
    ∃ k rest, s.keyboard.queue = k :: rest := by
  cases hq : s.keyboard.queue with
  | nil => simp [State.keyAtHead, hq] at h
  | cons k rest => exact ⟨k, rest, rfl⟩

/-- A command of the key queue takes the head key and acts on it (R141). -/
theorem takeKey_acts {c : Instr} {s : State} {takes : Key → Bool} {act : QueuedKey → State → State}
    (hc : keyActionOf c = some act) (h : s.keyAtHead takes = true) :
    ∃ u, Acts c (s.at u) (s.takeKey act) := by
  obtain ⟨k, rest, hq⟩ := keyAtHead_queue h
  refine ⟨s.now, ?_⟩
  simp only [State.takeKey, hq, State.at_self]
  exact .takeKey act k rest hc hq

/-- Every command but START and CONFIG_READ_END leaves the state as it was or has its effect at its
instant. -/
theorem exec_acts {c : Instr} {s t : State} (h : exec c s = .next t) (hstart : c ≠ .start)
    (hread : ∀ bits pins u, c ≠ .configReadEnd bits pins u) : ActsOrStays c s t := by
  cases c with
  | start => exact absurd rfl hstart
  | configReadEnd bits pins u => exact absurd rfl (hread bits pins u)
  | filteredLevelChange count date =>
    simp only [exec, execFilteredLevelChange] at h
    refine perform_cases h fun _ => ?_
    split
    · exact ⟨_, .level (s := s.at _) count date⟩
    · exact ⟨s.now, by rw [State.at_self]; exact .shortRun count date⟩
  | startCentreSample =>
    simp only [exec, execStartCentreSample] at h
    split at h
    · exact perform_cases h fun _ => ⟨_, .startCentre _ _⟩
    · exact perform_none h
  | dataUnitSample =>
    simp only [exec, execDataUnitSample] at h
    split at h
    · exact perform_cases h fun _ => ⟨_, .dataReading _ _ _⟩
    · exact perform_none h
  | stopSample =>
    simp only [exec, execStopSample] at h
    split at h
    · exact perform_cases h fun _ => ⟨_, .stopReading _ _ _⟩
    · exact perform_none h
  | markLastingQ =>
    simp only [exec, execMarkLastingQ] at h
    split at h
    · exact perform_cases h fun _ => ⟨_, .quiet _⟩
    · exact perform_none h
  | breakEvent =>
    simp only [exec, execBreakEvent] at h
    split at h
    · exact perform_cases h fun _ => ⟨_, .breakEvent _⟩
    · exact perform_none h
  | lineOpen =>
    simp only [exec, execLineOpen] at h
    split at h
    · exact perform_cases h fun _ => ⟨_, .lineOpen _⟩
    · exact perform_none h
  | answerStartInstant =>
    simp only [exec, execAnswerStartInstant] at h
    split at h
    · rename_i a hm ha
      exact perform_cases h fun _ => ⟨_, .startAnswer (s := s.at _) a hm ha⟩
    · exact perform_none h
  | slottedPhaseEnd =>
    simp only [exec, execSlottedPhaseEnd] at h
    exact perform_cases h fun _ => ⟨_, .slottedEnd _⟩
  | freePhaseTimeout =>
    simp only [exec, execFreePhaseTimeout] at h
    exact perform_cases h fun _ => ⟨_, .freeTimeout _⟩
  | attemptBegin =>
    simp only [exec, execAttemptBegin] at h
    split at h
    · exact perform_cases h fun hk => ⟨_, .attemptBegin (s := s.at _) (eq_of_beq hk)⟩
    · exact perform_none h
  | keyerSupplyPoint =>
    simp only [exec, execKeyerSupplyPoint] at h
    split at h
    · rename_i k hk
      exact perform_cases h fun _ => ⟨_, .supplyPoint (s := s.at _) k hk⟩
    · exact perform_none h
  | keyerStopElementEnd =>
    simp only [exec, execKeyerStopElementEnd] at h
    split at h
    · rename_i k hk
      exact perform_cases h fun _ => ⟨_, .stopElementEnd (s := s.at _) k _ hk⟩
    · exact perform_none h
  | keyerUnitBoundary =>
    simp only [exec, execKeyerUnitBoundary] at h
    split at h
    · rename_i k hk
      exact perform_cases h fun _ => ⟨_, .unitBoundary (s := s.at _) k _ hk⟩
    · exact perform_none h
  | echoMismatch t =>
    simp only [exec, execEchoMismatch] at h
    split at h
    · rename_i k hk
      exact perform_cases h fun _ => ⟨_, .echoMismatch (s := s.at _) k _ hk⟩
    · exact perform_none h
  | breakLimit =>
    simp only [exec, execBreakLimit] at h
    split at h
    · rename_i k hk
      exact perform_cases h fun _ => ⟨_, .breakLimit (s := s.at _) k hk⟩
    · exact perform_none h
  | keyDown k t =>
    simp only [exec, execKeyDown] at h
    exact perform_cases h fun _ => ⟨_, .keyDown k rfl⟩
  | clear t =>
    simp only [exec, execClear] at h
    exact perform_cases h fun _ => ⟨_, .keyDown .clear rfl⟩
  | breakDown t =>
    simp only [exec, execBreakDown] at h
    exact perform_cases h fun _ => ⟨_, .keyDown .brk rfl⟩
  | tapeFeedDown t =>
    simp only [exec, execTapeFeedDown] at h
    exact perform_cases h fun _ => ⟨_, .keyDown .tapeFeed rfl⟩
  | keyUp k t =>
    simp only [exec, execKeyUp] at h
    exact perform_cases h fun _ => ⟨_, .keyUp k rfl⟩
  | breakUp t =>
    simp only [exec, execBreakUp] at h
    exact perform_cases h fun _ => ⟨_, .keyUp .brk rfl⟩
  | tapeFeedUp t =>
    simp only [exec, execTapeFeedUp] at h
    exact perform_cases h fun _ => ⟨_, .keyUp .tapeFeed rfl⟩
  | modeEvent m t =>
    simp only [exec, execModeEvent] at h
    exact perform_cases h fun _ => ⟨_, .mode m t⟩
  | dataKey | formatKey | callKey | endKey | cancelKey | enqKey | statusKey | hereIsKey | bellKey
  | logKey =>
    simp only [exec, execLogKey] at h
    exact perform_cases h (takeKey_acts rfl)
  | localCopierWrite =>
    simp only [exec, execLocalCopierWrite] at h
    exact perform_cases h fun _ => ⟨s.now, by rw [State.at_self]; exact .copierWrite⟩
  | noticeRunWrite =>
    simp only [exec, execNoticeRunWrite] at h
    exact perform_cases h fun _ => ⟨s.now, by rw [State.at_self]; exact .noticeWrite⟩
  | wheelPositionEvent index t =>
    simp only [exec, execWheelPositionEvent] at h
    exact perform_cases h fun _ => ⟨_, .mech (s := s.at _) _ (.wheel index t)⟩
  | hammerPulseEnd =>
    simp only [exec, execHammerPulseEnd] at h
    split at h
    · rename_i k hk
      exact perform_cases h fun _ => ⟨_, .mech (s := s.at _) _ (.hammerPulse k hk)⟩
    · exact perform_none h
  | hammerRecoveryEnd =>
    simp only [exec, execHammerRecoveryEnd] at h
    split at h
    · exact perform_cases h fun _ => ⟨_, .mech (s := s.at _) _ .hammerRecovery⟩
    · exact perform_none h
  | carriageStepEnd =>
    simp only [exec, execCarriageStepEnd] at h
    split at h
    · rename_i k hk
      exact perform_cases h fun _ => ⟨_, .mech (s := s.at _) _ (.carriageStep k hk)⟩
    · exact perform_none h
  | lineTimeEnd =>
    simp only [exec, execLineTimeEnd] at h
    split at h
    · exact perform_cases h fun _ => ⟨_, .mech (s := s.at _) _ .lineTime⟩
    · exact perform_none h
  | leftMarginContact t =>
    simp only [exec, execLeftMarginContact] at h
    exact perform_cases h fun _ => ⟨_, .mech (s := s.at _) _ (.marginContact t)⟩
  | returnTimeout =>
    simp only [exec, execReturnTimeout] at h
    split at h
    · exact perform_cases h fun _ => ⟨_, .mech (s := s.at _) _ .returnTimeout⟩
    · exact perform_none h
  | paperOut t =>
    simp only [exec, execPaperOut] at h
    exact perform_cases h fun _ => ⟨_, .mech (s := s.at _) _ (.paperOut t)⟩
  | paperIn t =>
    simp only [exec, execPaperIn] at h
    exact perform_cases h fun _ => ⟨_, .mech (s := s.at _) _ (.paperIn t)⟩
  | bellPulseEnd =>
    simp only [exec, execBellPulseEnd] at h
    split at h
    · exact perform_cases h fun _ => ⟨_, .bellPulseEnd⟩
    · exact perform_none h
  | punchSwitchEvent a b t =>
    simp only [exec, execPunchSwitchEvent] at h
    exact perform_cases h fun _ => ⟨_, .mech (s := s.at _) _ (.punchSwitch a b t)⟩
  | punchPulseEnd =>
    simp only [exec, execPunchPulseEnd] at h
    split at h
    · rename_i k hk
      exact perform_cases h fun _ => ⟨_, .punchPulseEnd (s := s.at _) k hk⟩
    · exact perform_none h
  | punchDone t =>
    simp only [exec, execPunchDone] at h
    split at h
    · rename_i k hk
      exact perform_cases h fun _ => ⟨_, .mech (s := s.at _) _ (.punchDone t k hk)⟩
    · exact perform_none h
  | punchCycleTimeout =>
    simp only [exec, execPunchCycleTimeout] at h
    split at h
    · rename_i k hk
      exact perform_cases h fun _ => ⟨_, .mech (s := s.at _) _ (.punchTimeout k hk)⟩
    · exact perform_none h
  | tapeLow t =>
    simp only [exec, execTapeLow] at h
    exact perform_cases h fun _ => ⟨_, .mech (s := s.at _) _ (.tapeLow t)⟩
  | tapeGone t =>
    simp only [exec, execTapeGone] at h
    exact perform_cases h fun _ => ⟨_, .mech (s := s.at _) _ (.tapeGone t)⟩
  | tapeReplaced t =>
    simp only [exec, execTapeReplaced] at h
    exact perform_cases h fun _ => ⟨_, .mech (s := s.at _) _ (.tapeReplaced t)⟩
  | tapeSensorFlagChange low t =>
    simp only [exec, execTapeSensorFlagChange] at h
    refine perform_cases h fun hl => ⟨_, .tapeSensor (s := s.at _) low t ?_⟩
    simp only [Bool.and_eq_true, Bool.not_eq_true'] at hl
    exact hl.1
  | runUpExpiry =>
    simp only [exec, execRunUpExpiry] at h
    split at h
    · rename_i k hk
      exact perform_cases h fun _ => ⟨_, .mech (s := s.at _) _ (.runUp k hk)⟩
    · exact perform_none h
  | speedOkChange ok t =>
    simp only [exec, execSpeedOkChange] at h
    exact perform_cases h fun _ => ⟨_, .mech (s := s.at _) _ (.speedOk ok t)⟩
  | idleTimerExpiry =>
    simp only [exec, execIdleTimerExpiry] at h
    split at h
    · rename_i k hk
      exact perform_cases h fun _ => ⟨_, .mech (s := s.at _) _ (.idleTimer k hk)⟩
    · exact perform_none h

/-- What a command can do: nothing, a start, the end of the configuration read, or its effect at its
instant while the part works. -/
theorem exec_cases {c : Instr} {s t : State} (h : exec c s = .next t) :
    t = s ∨ (c = .start ∧ t = s.started) ∨
      (∃ bits pins u, c = .configReadEnd bits pins u ∧ s.working = false ∧
        bits.length = Config.imageClocks ∧ t = (s.at u).readEnd bits pins (max s.now u)) ∨
      (s.working = true ∧ ∃ u, Acts c (s.at u) t) := by
  by_cases hstart : c = .start
  · subst hstart
    exact .inr (.inl ⟨rfl, (Host.Outcome.next.inj h).symm⟩)
  · by_cases hread : ∃ bits pins u, c = .configReadEnd bits pins u
    · obtain ⟨bits, pins, u, rfl⟩ := hread
      have h := Host.Outcome.next.inj h
      split at h
      · rename_i hw
        simp only [Bool.and_eq_true, Bool.not_eq_true', beq_iff_eq] at hw
        exact .inr (.inr (.inl ⟨bits, pins, u, rfl, hw.1, hw.2, h.symm⟩))
      · exact .inl h.symm
    · rcases exec_acts h hstart fun bits pins u hc => hread ⟨bits, pins, u, hc⟩ with h | h
      · exact .inl h
      · exact .inr (.inr (.inr h))

end Sys2Proof.Machine
end

section
/-! What a command does to the mechanism: the moves by which every command but START and CONFIG_READ_END gets from
one mechanism to the next. -/

namespace Sys2Proof.Machine

open Sys2Proof

/-! ### Moves of the mechanism -/

/-- CLEAR at the mechanism (R123, R131, R166). -/
def Mech.cleared (m : Mech) : Mech :=
  { m with
    motor := m.motor.clearFault
    printer := m.printer.clearFault (m.motor.state == .running)
    punch := m.punch.clearFault (m.motor.state == .running) }

/-- What a command of the keyboard or the mode switch alone does at the mechanism. -/
inductive MechOwn (p : Params) (now : Ticks) (c : Instr) (m : Mech) : Mech → Prop where
  | clear : downKeyOf c = some .clear → MechOwn p now c m m.cleared
  | feedDown : MechOwn p now c m { m with punch := m.punch.feedDown p now }
  | feedUp : MechOwn p now c m { m with punch := m.punch.feedUp }
  | mode (d : Mode) (t : Ticks) : c = .modeEvent d t → MechOwn p now c m
      { m with motor := ({ m.motor with mode := d } : Motor).restartIdle p now }

/-- The queue with its entries, its pointers, its counts and its watermark state as they are; the requests stay within
their bound (R95). -/
structure CopyQueue.Same (q q' : CopyQueue) : Prop where
  entries : q'.entries = q.entries
  printAt : q'.printAt = q.printAt
  punchAt : q'.punchAt = q.punchAt
  held : q'.held = q.held
  watermark : q'.watermark = q.watermark
  requests : q.requests.length ≤ 4 → q'.requests.length ≤ 4

theorem CopyQueue.Same.refl (q : CopyQueue) : q.Same q := ⟨rfl, rfl, rfl, rfl, rfl, id⟩

/-- The moves from one mechanism to another within the command `c`, before it settles: what any command may do (a
change of the queue's standings, a write, a bell request, a start event, a restart of the idle timer), and what `c`
alone does. -/
inductive Mech.Goes (p : Params) (now : Ticks) (c : Instr) (m : Mech) : Mech → Prop where
  | refl : Goes p now c m m
  | queue {n : Mech} (q : CopyQueue) : n.queue.Same q → Goes p now c m n → Goes p now c m { n with queue := q }
  | write {n : Mech} (e : Entry) : Goes p now c m n → Goes p now c m (n.write p now e)
  | ring {n : Mech} : Goes p now c m n → Goes p now c m { n with printer := n.printer.ring now }
  | startEvent {n : Mech} : Goes p now c m n →
      Goes p now c m { n with motor := n.motor.startEvent p now }
  | keyEvent {n : Mech} : Goes p now c m n → Goes p now c m { n with motor := n.motor.keyEvent p now }
  | own {n k : Mech} : Goes p now c m n → MechOwn p now c n k → Goes p now c m k

theorem Mech.Goes.trans {p : Params} {now : Ticks} {c : Instr} {m n k : Mech}
    (h : Mech.Goes p now c m n) (g : Mech.Goes p now c n k) : Mech.Goes p now c m k := by
  induction g with
  | refl => exact h
  | queue q hq _ ih => exact ih.queue q hq
  | write e _ ih => exact ih.write e
  | ring _ ih => exact ih.ring
  | startEvent _ ih => exact ih.startEvent
  | keyEvent _ ih => exact ih.keyEvent
  | own _ ho ih => exact ih.own ho

theorem Mech.Goes.writeAll {p : Params} {now : Ticks} {c : Instr} {m n : Mech}
    (h : Mech.Goes p now c m n) (es : List Entry) : Mech.Goes p now c m (n.writeAll p now es) :=
  Mech.writeAll_induct (Mech.Goes p now c m) (fun _ e h => h.write e) es n h

/-- What holds of a mechanism and goes through every move holds behind them. -/
theorem Mech.Goes.keeps {p : Params} {now : Ticks} {c : Instr} {m n : Mech} {P : Mech → Prop}
    (h : Mech.Goes p now c m n) (hm : P m)
    (queue : ∀ m q, m.queue.Same q → P m → P { m with queue := q })
    (write : ∀ m e, P m → P (m.write p now e))
    (ring : ∀ m, P m → P { m with printer := m.printer.ring now })
    (startEvent : ∀ m, P m → P { m with motor := m.motor.startEvent p now })
    (keyEvent : ∀ m, P m → P { m with motor := m.motor.keyEvent p now })
    (own : ∀ m n, P m → MechOwn p now c m n → P n) : P n := by
  induction h with
  | refl => exact hm
  | queue q hq _ ih => exact queue _ q hq ih
  | write e _ ih => exact write _ e ih
  | ring _ ih => exact ring _ ih
  | startEvent _ ih => exact startEvent _ ih
  | keyEvent _ ih => exact keyEvent _ ih
  | own _ ho ih => exact own _ _ ih ho

/-- The commands at which the listener takes a character (R29, R30). -/
def listens : Instr → Bool
  | .stopSample | .filteredLevelChange _ _ => true
  | _ => false

/-- The commands at which the keyer changes: its own, and those of BREAK and LINE-OPEN (R36, R38, R54). -/
def keys : Instr → Bool
  | .attemptBegin | .answerStartInstant | .keyerUnitBoundary | .keyerSupplyPoint
  | .keyerStopElementEnd | .echoMismatch _ | .breakLimit | .lineOpen => true
  | c => downKeyOf c == some .brk || upKeyOf c == some .brk

/-- What the listener alone gives the rest of the part to remember: the peer table and L. -/
def State.remembered (s : State) : Vector (Option PeerEntry) 31 × Code :=
  (s.matcher.peers, s.listener.lastOriginator)

/-- What nearly every command leaves: the clock, the waiting commands, the loader and the sequence counter. -/
def State.still (s : State) : Ticks × List Instr × Loader × Code :=
  (s.now, s.pending, s.loader, s.transmitter.seq)

/-- The parts of the state that few commands touch. -/
def State.calm (s : State) :
    (Ticks × List Instr × Loader × Code) × (Vector (Option PeerEntry) 31 × Code) × Keyer :=
  (s.still, s.remembered, s.keyer)

/-- What the command `c` leaves as it is from `s` to `t`: the clock, the waiting commands and the loader; the
sequence counter but at CALL, what is remembered but where the listener takes a character, and the keyer but at its
own commands. -/
structure State.Calm (c : Instr) (s t : State) : Prop where
  now : t.now = s.now
  pending : t.pending = s.pending
  loader : t.loader = s.loader
  seq : c ≠ .callKey → t.transmitter.seq = s.transmitter.seq
  remembered : listens c = false → t.remembered = s.remembered
  keyer : keys c = false → t.keyer = s.keyer

/-- `t` comes from `s` within the command `c`, and the mechanism by its moves. -/
structure State.Runs (c : Instr) (s t : State) : Prop extends State.Calm c s t where
  mech : Mech.Goes s.loader.params s.now c s.mech t.mech

theorem State.Calm.of_keyer {c : Instr} (hc : keys c = true) {s t : State} (h : t.still = s.still)
    (hr : t.remembered = s.remembered) : State.Calm c s t := by
  simp only [State.still, Prod.mk.injEq] at h
  obtain ⟨hn, hp, hl, hseq⟩ := h
  exact ⟨hn, hp, hl, fun _ => hseq, fun _ => hr, fun h => absurd hc (Bool.eq_false_iff.mp h)⟩

theorem State.Calm.of_heard {c : Instr} (hc : listens c = true) {s t : State} (h : t.still = s.still)
    (hk : t.keyer = s.keyer) : State.Calm c s t := by
  simp only [State.still, Prod.mk.injEq] at h
  obtain ⟨hn, hp, hl, hseq⟩ := h
  exact ⟨hn, hp, hl, fun _ => hseq, fun h => absurd hc (Bool.eq_false_iff.mp h), fun _ => hk⟩

theorem State.Calm.of_eq {c : Instr} {s t : State} (h : t.calm = s.calm) : State.Calm c s t := by
  simp only [State.calm, State.still, Prod.mk.injEq] at h
  obtain ⟨⟨hn, hp, hl, hseq⟩, hrem, hk⟩ := h
  exact ⟨hn, hp, hl, fun _ => hseq, fun _ => hrem, fun _ => hk⟩

theorem State.Calm.trans {c : Instr} {s t u : State} (h : State.Calm c s t) (g : State.Calm c t u) :
    State.Calm c s u where
  now := g.now.trans h.now
  pending := g.pending.trans h.pending
  loader := g.loader.trans h.loader
  seq hc := (g.seq hc).trans (h.seq hc)
  remembered hc := (g.remembered hc).trans (h.remembered hc)
  keyer hc := (g.keyer hc).trans (h.keyer hc)

namespace State.Runs

variable {c : Instr}

theorem trans {s t u : State} (h : Runs c s t) (g : Runs c t u) : Runs c s u where
  toCalm := h.toCalm.trans g.toCalm
  mech := by
    have gm := g.mech
    rw [h.now, h.loader] at gm
    exact h.mech.trans gm

theorem of_moves {s t : State} (h : t.calm = s.calm)
    (hm : Mech.Goes s.loader.params s.now c s.mech t.mech) : Runs c s t := ⟨.of_eq h, hm⟩

/-- A change beside the mechanism. -/
theorem of_eq {s t : State} (h : t.calm = s.calm) (hm : t.mech = s.mech) : Runs c s t :=
  of_moves h (hm ▸ .refl)

theorem refl (s : State) : Runs c s s := of_eq rfl rfl

/-- A change beside the mechanism before the moves. -/
theorem after {s t u : State} (g : Runs c t u) (h : t.calm = s.calm) (hm : t.mech = s.mech) : Runs c s u :=
  (of_eq h hm).trans g

/-- A change beside the mechanism behind the moves. -/
theorem before {s t u : State} (g : Runs c s t) (h : u.calm = t.calm) (hm : u.mech = t.mech) : Runs c s u :=
  g.trans (of_eq h hm)

/-- A change of the keyer before the moves, at a command of the keyer. -/
theorem afterKeyer (hc : keys c = true) {s t u : State} (g : Runs c t u) (h : t.still = s.still)
    (hr : t.remembered = s.remembered) (hm : t.mech = s.mech) : Runs c s u :=
  trans ⟨.of_keyer hc h hr, hm ▸ .refl⟩ g

/-- A change of what is remembered before the moves, where the listener takes a character. -/
theorem afterHeard (hc : listens c = true) {s t u : State} (g : Runs c t u) (h : t.still = s.still)
    (hk : t.keyer = s.keyer) (hm : t.mech = s.mech) : Runs c s u :=
  trans ⟨.of_heard hc h hk, hm ▸ .refl⟩ g

end State.Runs

section
variable {c : Instr}

/-! ### Writers of the copy queue -/

theorem State.onQueue_runs (s : State) (f : CopyQueue → CopyQueue) (h : s.mech.queue.Same (f s.mech.queue)) :
    Runs c s (s.onQueue f) := .of_moves rfl (.queue _ h .refl)

theorem CopyQueue.post_same (q : CopyQueue) (r : Request) : q.Same (q.post r) := by
  unfold CopyQueue.post
  split
  · rename_i h
    exact ⟨rfl, rfl, rfl, rfl, rfl, fun _ => by rw [List.length_append]; exact h⟩
  · exact ⟨rfl, rfl, rfl, rfl, rfl, id⟩

theorem CopyQueue.popRequest_same (q : CopyQueue) : q.Same q.popRequest := by
  have hpopped : q.requests.length ≤ 4 → q.requests.tail.length ≤ 4 := by
    rw [List.length_tail]
    omega
  unfold CopyQueue.popRequest
  dsimp only
  split <;> exact ⟨rfl, rfl, rfl, rfl, rfl, hpopped⟩

theorem State.post_runs (s : State) (r : Request) : Runs c s (s.post r) := s.onQueue_runs _ (s.mech.queue.post_same r)
theorem State.write_runs (s : State) (e : Entry) : Runs c s (s.write e) :=
  .of_moves rfl (.write e .refl)
theorem State.writeAll_runs (s : State) (es : List Entry) : Runs c s (s.writeAll es) :=
  .of_moves rfl (Mech.Goes.writeAll .refl es)
theorem State.ring_runs (s : State) : Runs c s s.ring := .of_moves rfl (.ring .refl)

theorem State.startMotor_runs (s : State) :
    Runs c s (s.onMech fun p now m => { m with motor := m.motor.startEvent p now }) :=
  .of_moves rfl (.startEvent .refl)

theorem State.closeLocalRun_runs (s : State) : Runs c s s.closeLocalRun := by
  unfold State.closeLocalRun
  split
  · exact .refl s
  · exact (s.write_runs _).trans (State.onQueue_runs _ _ ⟨rfl, rfl, rfl, rfl, rfl, id⟩)
  · exact s.onQueue_runs _ ⟨rfl, rfl, rfl, rfl, rfl, id⟩

theorem State.suspendLocalRun_runs (s : State) : Runs c s s.suspendLocalRun := by
  unfold State.suspendLocalRun
  split
  · exact (s.write_runs _).trans (State.onQueue_runs _ _ ⟨rfl, rfl, rfl, rfl, rfl, id⟩)
  · exact .refl s

theorem State.testNotice_runs (s : State) : Runs c s s.testNotice := by
  have hpop : Runs c s (s.onQueue CopyQueue.popRequest) := s.onQueue_runs _ s.mech.queue.popRequest_same
  have htold : Runs c s (s.onQueue CopyQueue.tellCopier) := s.onQueue_runs _ ⟨rfl, rfl, rfl, rfl, rfl, id⟩
  unfold State.testNotice
  dsimp only
  split
  · exact .refl s
  · split
    · exact htold
    · split
      · exact hpop
      · split
        · exact hpop
        · split
          · refine (s.suspendLocalRun_runs.trans (State.writeAll_runs _ _)).trans (State.onQueue_runs _ _ ?_)
            obtain ⟨he, hpr, hpu, hh, hw, hr⟩ := CopyQueue.popRequest_same
              { (s.suspendLocalRun.writeAll _).mech.queue with holder := .none }
            exact ⟨he, hpr, hpu, hh, hw, hr⟩
          · exact htold

/-! ### Changes beside the mechanism -/

theorem State.matcher_runs (s : State) (x : Matcher) (h : x.peers = s.matcher.peers) :
    Runs c s { s with matcher := x } :=
  .of_eq (by simp only [State.calm, State.still, State.remembered, h]) rfl
theorem State.copier_runs (s : State) (k : Copier) : Runs c s { s with copier := k } :=
  .of_eq rfl rfl
theorem State.onIncoming_runs (s : State) (f : Incoming → Incoming) : Runs c s (s.onIncoming f) :=
  .of_eq rfl rfl
theorem State.giveBack_runs (s : State) : Runs c s s.giveBack := .of_eq rfl rfl

/-! ### The local copier -/

theorem State.completeCopies_runs (n : Nat) (s : State) : Runs c s (s.completeCopies n) := by
  induction n generalizing s with
  | zero => exact .refl s
  | succ n ih =>
    unfold State.completeCopies
    split
    · exact .refl s
    · split
      · refine (s.closeLocalRun_runs).trans (.trans ?_ (ih _))
        exact .of_eq rfl rfl
      · exact .refl s

theorem State.copierLooks_runs (s : State) : Runs c s s.copierLooks := s.completeCopies_runs _

theorem State.offer_runs {s t : State} {x : Code} (h : s.offer x = some t) : Runs c s t := by
  unfold State.offer at h
  dsimp only at h
  split at h
  · cases h
  · split at h
    · split at h
      · cases h; exact s.write_runs _
      · cases h
    · split at h
      · cases h; exact (s.onQueue_runs _ ⟨rfl, rfl, rfl, rfl, rfl, id⟩).trans (State.writeAll_runs _ _)
      · cases h

/-! ### The transmitter -/

theorem State.activate_runs (s : State) : Runs c s s.activate := by
  obtain ⟨tb, h⟩ := s.activate_frame
  rw [h]
  exact .of_eq rfl rfl

theorem State.finishMessage_runs (s : State) (o : OutOutcome) (content : Content) :
    Runs c s (s.finishMessage o content) := by
  unfold State.finishMessage
  split
  · exact .refl s
  · dsimp only
    refine .trans ?_ (State.giveBack_runs _)
    refine .trans ?_ (State.activate_runs _)
    refine .trans ?_ (State.post_runs _ _)
    exact .of_eq rfl rfl

theorem State.contendAgain_runs (s : State) (f : Message → Message) : Runs c s (s.contendAgain f) :=
  .of_eq rfl rfl

theorem State.collision_runs (s : State) : Runs c s s.collision := by
  unfold State.collision
  split
  · exact .refl s
  · split
    · exact s.finishMessage_runs _ _
    · exact s.contendAgain_runs _

theorem State.interrupt_runs (s : State) : Runs c s s.interrupt := by
  unfold State.interrupt
  split
  · exact s.finishMessage_runs _ _
  · exact .refl s

theorem State.phaseJudged_runs (s : State) : Runs c s s.phaseJudged := by
  unfold State.phaseJudged
  split
  · split
    · dsimp only
      split
      · exact .after (State.finishMessage_runs _ _ _) rfl rfl
      · exact .of_eq rfl rfl
    · split <;> exact .of_eq rfl rfl
  · exact .refl s

theorem State.phaseReported_runs (s : State) (ph : Phase) : Runs c s (s.phaseReported ph) := by
  unfold State.phaseReported
  split
  · split <;> exact .of_eq rfl rfl
  · exact .refl s

theorem State.phaseChar_runs (s : State) (x : RxChar) : Runs c s (s.phaseChar x) := by
  unfold State.phaseChar
  split
  · split <;> exact .of_eq rfl rfl
  · exact .refl s

theorem State.messageKeyed_runs (s : State) : Runs c s s.messageKeyed := by
  unfold State.messageKeyed
  split
  · exact .refl s
  · split
    · exact s.finishMessage_runs _ _
    · split
      · dsimp only
        split
        · exact .after (State.phaseJudged_runs _) rfl rfl
        · exact .of_eq rfl rfl
      · exact s.collision_runs

theorem State.messageMismatch_runs (s : State) (t : Ticks) : Runs c s (s.messageMismatch t) := by
  unfold State.messageMismatch
  split
  · exact .refl s
  · split
    · exact s.finishMessage_runs _ _
    · exact .of_eq rfl rfl

theorem State.spaceEnded_runs (s : State) (date : Option Ticks) : Runs c s (s.spaceEnded date) := by
  unfold State.spaceEnded
  split
  · split
    · exact s.collision_runs
    · exact .refl s
  · exact .refl s

theorem State.cancelRequest_runs (s : State) : Runs c s s.cancelRequest := by
  unfold State.cancelRequest
  split
  · exact .refl s
  · split
    · exact s.finishMessage_runs _ _
    · split
      · exact .refl s
      · split
        · exact s.finishMessage_runs _ _
        · split <;> exact .of_eq rfl rfl
    · exact .refl s

/-! ### The composer -/

theorem State.closeOpenText_runs (s : State) : Runs c s s.closeOpenText := by
  unfold State.closeOpenText
  split
  · exact .after (State.copierLooks_runs _) rfl rfl
  · exact .refl s

theorem State.makeRoom_runs (s : State) (n : Nat) : Runs c s (s.makeRoom n) := by
  unfold State.makeRoom
  split
  · exact s.closeOpenText_runs
  · exact .refl s

theorem State.charInLocal_runs (s : State) (act : Option Case → StoreAction) :
    Runs c s (s.charInLocal act) := by
  unfold State.charInLocal
  dsimp only
  refine (s.makeRoom_runs (act s.composer.sendCase).chars.length).trans ?_
  split
  · split
    · exact .of_eq rfl rfl
    · exact State.ring_runs _
  · split
    · exact .of_eq rfl rfl
    · exact State.ring_runs _

theorem State.charInText_runs (s : State) (act : Option Case → StoreAction) :
    Runs c s (s.charInText act) := by
  unfold State.charInText
  split
  · exact .of_eq rfl rfl
  · exact s.ring_runs

theorem State.kindToText_runs (s : State) : Runs c s s.kindToText := .of_eq rfl rfl
theorem State.toLocal_runs (s : State) : Runs c s s.toLocal := .of_eq rfl rfl

theorem State.discardComposing_runs (s : State) : Runs c s s.discardComposing := by
  unfold State.discardComposing
  split
  · exact .refl s
  · split
    · exact .refl s
    · split
      · dsimp only
        split
        · refine .trans ?_ (State.copier_runs _ _)
          exact .after (State.closeLocalRun_runs _) rfl rfl
        · exact .of_eq rfl rfl
      · exact .refl s

theorem State.closeReady_runs (s : State) (kind : Code) : Runs c s (s.closeReady kind) := by
  unfold State.closeReady
  refine .trans ?_ (State.copierLooks_runs _)
  refine .trans ?_ (State.activate_runs _)
  exact .of_eq rfl rfl

theorem State.callInLocal_runs (hc : c = .callKey) (s : State) : Runs c s s.callInLocal := by
  unfold State.callInLocal
  split
  · exact s.ring_runs
  · refine s.closeOpenText_runs.trans ?_
    exact ⟨⟨rfl, rfl, rfl, fun h => absurd hc h, fun _ => rfl, fun _ => rfl⟩, .refl⟩

theorem State.addressDigit_runs (s : State) (d : Nat) : Runs c s (s.addressDigit d) := by
  unfold State.addressDigit
  split
  · exact .of_eq rfl rfl
  · dsimp only
    split
    · exact .after (State.ring_runs _) rfl rfl
    · split <;> exact .of_eq rfl rfl

theorem State.charKey_runs (s : State) (act : Option Case → StoreAction) : Runs c s (s.charKey act) := by
  unfold State.charKey
  split
  · exact s.charInLocal_runs act
  · exact s.ring_runs
  · exact s.kindToText_runs.trans (State.charInText_runs _ act)
  · exact s.charInText_runs act

/-- What the composer does with the key a command takes. -/
theorem keyAction_runs {act : QueuedKey → State → State} (hc : keyActionOf c = some act)
    (k : QueuedKey) (s : State) : State.Runs c s (act k s) := by
  cases c with
  | dataKey =>
    cases hc
    simp only [State.takeData]
    split
    · simp only [State.dataKeyTaken]
      split
      · split
        · exact s.addressDigit_runs _
        · exact s.ring_runs
      · exact s.charKey_runs _
    · exact .refl s
  | formatKey =>
    cases hc
    simp only [State.takeFormat]
    split
    · exact s.charKey_runs _
    · exact .refl s
  | callKey =>
    cases hc
    simp only [State.callTaken]
    split
    · exact State.callInLocal_runs rfl s
    · exact s.ring_runs
    · exact s.kindToText_runs
    · exact .refl s
  | endKey =>
    cases hc
    simp only [State.endTaken]
    split
    · exact .refl s
    · exact s.ring_runs
    · exact s.closeReady_runs _
    · exact s.closeReady_runs _
  | cancelKey =>
    cases hc
    simp only [State.cancelTaken]
    split
    · exact s.cancelRequest_runs
    · exact s.discardComposing_runs.trans (State.toLocal_runs _)
  | enqKey | statusKey =>
    cases hc
    simp only [State.requestTaken]
    split
    · exact .refl s
    · exact s.ring_runs
    · exact s.closeReady_runs _
    · exact .refl s
  | hereIsKey => cases hc; exact s.charKey_runs _
  | bellKey =>
    cases hc
    simp only [State.bellTaken]
    split
    · exact s.ring_runs
    · exact s.ring_runs
    · exact s.kindToText_runs.trans (State.charInText_runs _ _)
    · exact s.charInText_runs _
  | logKey => cases hc; exact s.post_runs _
  | _ => cases hc

/-! ### The keyboard and the mode switch -/

theorem State.keyGoesDown_runs (s : State) (k : Key) : Runs c s (s.keyGoesDown k) := by
  unfold State.keyGoesDown
  dsimp only
  split
  · exact .of_moves rfl (.keyEvent .refl)
  · exact .of_eq rfl rfl

theorem State.queueKey_runs (s : State) (k : Key) : Runs c s (s.queueKey k) := by
  unfold State.queueKey
  split
  · split
    · exact .of_eq rfl rfl
    · exact s.ring_runs
  · exact .refl s

theorem State.breakDown_runs (hc : keys c = true) (s : State) : Runs c s s.breakDown := by
  unfold State.breakDown
  split
  · dsimp only
    split
    · exact .afterKeyer hc (State.interrupt_runs _) rfl rfl rfl
    · exact .afterKeyer hc (.refl _) rfl rfl rfl
    · exact .afterKeyer hc (.refl _) rfl rfl rfl
  · exact .refl s

theorem State.clearDown_runs (hc : downKeyOf c = some .clear) (s : State) : Runs c s s.clearDown := by
  unfold State.clearDown
  dsimp only
  refine s.discardComposing_runs.trans ?_
  exact .of_moves rfl (.own .refl (.clear hc))

theorem keys_of_downKey (hc : downKeyOf c = some .brk) : keys c = true := by
  cases c <;> simp_all [keys, downKeyOf]

theorem keys_of_upKey (hc : upKeyOf c = some .brk) : keys c = true := by
  cases c <;> simp_all [keys, downKeyOf, upKeyOf]

theorem State.routeDown_runs {k : Key} (hc : downKeyOf c = some k) (s : State) :
    Runs c s (s.routeDown k) := by
  unfold State.routeDown
  split
  · exact .refl s
  · exact State.breakDown_runs (keys_of_downKey hc) s
  · exact s.clearDown_runs hc
  · unfold State.tapeFeedDown
    split
    · exact .of_moves rfl (.own .refl .feedDown)
    · exact .refl s
  · exact s.queueKey_runs _

theorem State.routeUp_runs {k : Key} (hc : upKeyOf c = some k) (s : State) : Runs c s (s.routeUp k) := by
  unfold State.routeUp
  split
  · unfold State.breakUp
    split
    · exact .afterKeyer (keys_of_upKey hc) (.refl _) rfl rfl rfl
    · exact .refl s
  · exact .of_moves rfl (.own .refl .feedUp)
  · exact .refl s

theorem State.modeChanged_runs {d : Mode} {t : Ticks} (hc : c = .modeEvent d t) (s : State) :
    Runs c s (s.modeChanged d) := by
  unfold State.modeChanged
  dsimp only
  have hmoved : Runs c s (s.onMech fun p now m =>
      { m with motor := ({ m.motor with mode := d } : Motor).restartIdle p now }) :=
    .of_moves rfl (.own .refl (.mode d t hc))
  split
  · exact hmoved
  · refine hmoved.trans ((State.discardComposing_runs _).trans ?_)
    exact (State.closeOpenText_runs _).before rfl rfl

/-! ### The receive run -/

theorem State.writeGap_runs (s : State) : Runs c s s.writeGap := by
  unfold State.writeGap
  split
  · exact .refl s
  · split
    · exact .of_moves rfl (.write _ .refl)
    · exact .refl s

theorem State.receiveWrite_runs (s : State) (e : Entry) : Runs c s (s.receiveWrite e) := by
  unfold State.receiveWrite
  dsimp only
  refine s.writeGap_runs.trans ?_
  split
  · exact State.write_runs _ _
  · exact .of_eq rfl rfl

theorem State.receiveWrites_runs (es : List Entry) (s : State) : Runs c s (s.receiveWrites es) := by
  unfold State.receiveWrites
  induction es generalizing s with
  | nil => exact .refl s
  | cons e es ih => exact (s.receiveWrite_runs e).trans (ih _)

theorem State.openReceiveRun_runs (s : State) : Runs c s s.openReceiveRun := by
  unfold State.openReceiveRun
  dsimp only
  refine .trans ?_ (State.receiveWrites_runs _ _)
  refine .trans ?_ (State.matcher_runs _ _ rfl)
  refine .trans ?_ (State.startMotor_runs _)
  exact s.suspendLocalRun_runs.trans ((State.onQueue_runs _ _ ⟨rfl, rfl, rfl, rfl, rfl, id⟩).trans (State.write_runs _ _))

theorem State.closeReceiveRun_runs (s : State) (d : Option Nat) : Runs c s (s.closeReceiveRun d) := by
  unfold State.closeReceiveRun
  split
  · exact .refl s
  · split
    · dsimp only
      refine .trans ?_ (State.onIncoming_runs _ _)
      refine .trans ?_ (State.matcher_runs _ _ rfl)
      refine .trans ?_ (State.onQueue_runs _ _ ⟨rfl, rfl, rfl, rfl, rfl, id⟩)
      refine .trans ?_ (State.write_runs _ _)
      refine s.writeGap_runs.trans ?_
      split
      · split
        · exact State.writeAll_runs _ _
        · exact .refl _
      · exact .refl _
    · exact .refl s

theorem State.takeCall_runs (s : State) (h : Header) : Runs c s (s.takeCall h) := by
  unfold State.takeCall
  dsimp only
  split
  · exact .after (State.openReceiveRun_runs _) rfl rfl
  · exact .of_eq rfl rfl

theorem State.matchHeader_runs (s : State) (h : Header) (valid : Bool) :
    Runs c s (s.matchHeader h valid) := by
  unfold State.matchHeader
  split
  · exact s.takeCall_runs h
  · exact .refl s

theorem State.matchText_runs (s : State) (x : RxChar) : Runs c s (s.matchText x) := by
  unfold State.matchText
  split
  · dsimp only
    split
    · exact .after (State.receiveWrite_runs _ _) rfl rfl
    · exact .of_eq rfl rfl
    · exact .of_eq rfl rfl
  · exact .refl s

theorem State.finishIncoming_runs (s : State) (o : InOutcome) : Runs c s (s.finishIncoming o) := by
  unfold State.finishIncoming
  split <;> exact .of_eq rfl rfl

theorem State.endCalled_runs (hc : listens c = true) (s : State) (i : Incoming) (good : Bool)
    (ph : Phase) : Runs c s (s.endCalled i good ph) := by
  unfold State.endCalled
  dsimp only
  refine .trans ?_ (State.matcher_runs _ _ rfl)
  refine .trans ?_ (State.finishIncoming_runs _ _)
  exact .afterHeard hc (State.closeReceiveRun_runs _ _) rfl rfl rfl

theorem State.matchEnd_runs (hc : listens c = true) (s : State) (good : Bool) (ph : Phase) : Runs c s (s.matchEnd good ph) := by
  unfold State.matchEnd
  split
  · exact State.endCalled_runs hc s _ _ _
  · exact .refl s

theorem State.matchBroken_runs (s : State) (d : Nat) (o : InOutcome) : Runs c s (s.matchBroken d o) := by
  unfold State.matchBroken
  split
  · dsimp only
    refine .trans ?_ (State.matcher_runs _ _ rfl)
    exact (s.closeReceiveRun_runs _).trans (State.finishIncoming_runs _ _)
  · exact .refl s

theorem State.answerPhaseOver_runs (s : State) : Runs c s s.answerPhaseOver := by
  unfold State.answerPhaseOver
  split <;> exact .of_eq rfl rfl

theorem State.answerOver_runs (s : State) : Runs c s s.answerOver := by
  unfold State.answerOver
  split <;> exact .of_eq rfl rfl

/-! ### The listener -/

theorem State.onListener_runs (s : State) (f : Listener → Listener)
    (h : (f s.listener).lastOriginator = s.listener.lastOriginator) : Runs c s (s.onListener f) :=
  .of_eq (by simp only [State.calm, State.still, State.remembered, State.onListener, h]) rfl

theorem State.countError_runs (s : State) : Runs c s s.countError := s.onListener_runs _ rfl

theorem State.headerTaken_runs (hc : listens c = true) (s : State) (h : Header) : Runs c s (s.headerTaken h) := by
  unfold State.headerTaken
  dsimp only
  split
  · exact .afterHeard hc (State.matchHeader_runs _ _ _) rfl rfl rfl
  · exact .afterHeard hc ((State.matchHeader_runs _ _ _).trans (State.countError_runs _)) rfl rfl rfl

theorem State.takeField_runs (hc : listens c = true) (s : State) (x : RxChar) : Runs c s (s.takeField x) := by
  unfold State.takeField
  dsimp only
  split
  · exact (s.onListener_runs _ rfl).trans (State.headerTaken_runs hc _ _)
  · exact s.onListener_runs _ rfl

theorem State.textCharacter_runs (s : State) (x : RxChar) : Runs c s (s.textCharacter x) :=
  (s.onListener_runs _ rfl).trans (State.matchText_runs _ _)

theorem State.messageOver_runs (s : State) (d : Nat) (o : InOutcome) (next : ListenerState) :
    Runs c s (s.messageOver d o next) := by
  unfold State.messageOver
  dsimp only
  refine .trans ?_ (State.onListener_runs _ _ rfl)
  refine .trans ?_ (State.matchBroken_runs _ _ _)
  split
  · exact (s.matchText_runs _).trans (State.matchText_runs _ _)
  · exact .refl s

theorem State.newCall_runs (h x : RxChar) (s : State) : Runs c s (State.newCall h x s) := by
  unfold State.newCall
  exact (s.onListener_runs _ rfl).trans ((State.messageOver_runs _ _ _ _).trans (State.onListener_runs _ _ rfl))

theorem State.takeText_runs (s : State) (x : RxChar) : Runs c s (s.takeText x) := by
  unfold State.takeText
  split
  · split
    · exact s.onListener_runs _ rfl
    · exact s.textCharacter_runs x
  · dsimp only
    have hreleased : Runs c s (s.onListener fun l => { l with held := none }) := s.onListener_runs _ rfl
    split
    · exact hreleased.trans (State.newCall_runs _ _ _)
    · split
      · exact hreleased.trans (State.onListener_runs _ _ rfl)
      · split
        · exact hreleased.trans (State.messageOver_runs _ _ _ _)
        · exact hreleased.trans ((State.textCharacter_runs _ _).trans (State.textCharacter_runs _ _))

theorem State.takeHeader_runs (hc : listens c = true) (s : State) (x : RxChar) : Runs c s (s.takeHeader x) := by
  unfold State.takeHeader
  split
  · split
    · exact s.onListener_runs _ rfl
    · exact State.takeField_runs hc s x
  · split
    · exact State.newCall_runs _ _ _
    · dsimp only
      split
      · exact (State.takeField_runs hc s _).trans (State.takeText_runs _ _)
      · exact (State.takeField_runs hc s _).trans (State.takeField_runs hc _ _)

theorem State.checkTaken_runs (hc : listens c = true) (s : State) (a b : RxChar) : Runs c s (s.checkTaken a b) := by
  unfold State.checkTaken
  dsimp only
  refine .trans ?_ (State.phaseReported_runs _ _)
  refine .trans ?_ (State.onListener_runs _ _ rfl)
  have hended (f : Listener → Listener) (good : Bool) (ph : Phase) :
      Runs c s ((s.onListener f).matchEnd good ph) :=
    .afterHeard hc (State.matchEnd_runs hc _ _ _) rfl rfl rfl
  split
  · split
    · exact (hended _ _ _).trans (State.onListener_runs _ _ rfl)
    · exact hended _ _ _
  · exact (hended _ _ _).trans (State.countError_runs _)

theorem State.takeCheck_runs (hc : listens c = true) (s : State) (x : RxChar) : Runs c s (s.takeCheck x) := by
  unfold State.takeCheck
  split
  · exact State.checkTaken_runs hc s _ _
  · split
    · exact s.onListener_runs _ rfl
    · exact s.onListener_runs _ rfl
  · split
    · exact State.newCall_runs _ _ _
    · exact State.checkTaken_runs hc s _ _

theorem State.takeIdle_runs (s : State) (x : RxChar) : Runs c s (s.takeIdle x) := by
  unfold State.takeIdle
  split
  · split
    · exact s.onListener_runs _ rfl
    · exact .refl s
  · split
    · exact s.onListener_runs _ rfl
    · exact s.onListener_runs _ rfl

theorem State.takeChar_runs (hc : listens c = true) (s : State) (x : RxChar) : Runs c s (s.takeChar x) := by
  unfold State.takeChar
  split
  · exact s.phaseChar_runs x
  · split
    · exact .refl s
    · exact s.takeIdle_runs x
    · exact State.takeHeader_runs hc s x
    · exact s.takeText_runs x
    · exact State.takeCheck_runs hc s x
    · exact s.phaseChar_runs x
    · exact s.phaseChar_runs x

theorem State.listen_runs (hc : listens c = true) (s : State) (x : RxChar) : Runs c s (s.listen x) := by
  unfold State.listen
  split
  · exact .refl s
  · refine .trans ?_ (State.takeChar_runs hc _ x)
    split
    · exact s.countError_runs
    · exact .refl s

theorem State.phaseOver_runs (s : State) (t : Ticks) (next : ListenerState) :
    Runs c s (s.phaseOver t next) :=
  (s.onListener_runs _ rfl).trans ((State.phaseJudged_runs _).trans (State.answerPhaseOver_runs _))

theorem State.listenerBreak_runs (s : State) (t : Ticks) : Runs c s (s.listenerBreak t) := by
  unfold State.listenerBreak
  split
  · exact s.messageOver_runs _ _ _
  · split
    · exact s.phaseOver_runs _ _
    · exact s.onListener_runs _ rfl

theorem State.listenerQuiet_runs (s : State) (date t : Ticks) : Runs c s (s.listenerQuiet date t) := by
  unfold State.listenerQuiet
  split
  · exact s.onListener_runs _ rfl
  · exact s.onListener_runs _ rfl
  · exact s.messageOver_runs _ _ _
  · exact s.messageOver_runs _ _ _
  · exact s.messageOver_runs _ _ _
  · split
    · exact s.phaseOver_runs _ _
    · exact .refl s
  · exact .refl s

/-! ### The keyer -/

theorem State.sequenceOver_runs (hc : keys c = true) (s : State) : Runs c s s.sequenceOver := by
  unfold State.sequenceOver
  dsimp only
  refine .afterKeyer hc (t := { s with keyer := Keyer.reset }) ?_ rfl rfl rfl
  split
  · exact State.messageKeyed_runs _
  · exact State.answerOver_runs _
  · exact .refl _

theorem State.stopElementOver_runs (hc : keys c = true) (s : State) (next : Supply) (t : Ticks) :
    Runs c s (s.stopElementOver next t) := by
  unfold State.stopElementOver
  split
  · exact .afterKeyer hc (.refl _) rfl rfl rfl
  · exact State.sequenceOver_runs hc s
  · exact .refl s

theorem State.mismatch_runs (hc : keys c = true) (s : State) (t : Ticks) : Runs c s (s.mismatch t) := by
  unfold State.mismatch
  dsimp only
  refine .afterKeyer hc (t := { s with keyer := Keyer.reset }) ?_ rfl rfl rfl
  split
  · exact State.messageMismatch_runs _ _
  · exact State.answerOver_runs _
  · exact .refl _

theorem State.spaceLimit_runs (hc : keys c = true) (s : State) : Runs c s s.spaceLimit := by
  unfold State.spaceLimit
  dsimp only
  refine .afterKeyer hc (t := { s with keyer := Keyer.reset }) ?_ rfl rfl rfl
  split
  · exact State.interrupt_runs _
  · exact State.answerOver_runs _
  · exact .refl _

end

/-! ### What a command leaves of the mechanism -/

/-- The mechanism a command leaves: settled behind its moves or
behind the event that the command is, changed at the queue alone, or changed by one of the
three events behind which the mechanism does not settle. -/
inductive Mech.Leaves (p : Params) (now : Ticks) (c : Instr) (m : Mech) : Mech → Prop where
  | settled {n : Mech} : Mech.Goes p now c m n → Leaves p now c m (n.settle p now)
  | acted {n : Mech} : MechAct p now m c n → Leaves p now c m (n.settle p now)
  | queue (q : CopyQueue) : m.queue.Same q → Leaves p now c m { m with queue := q }
  | bell : Leaves p now c m { m with printer := { m.printer with bell := none } }
  | magnets (x : PunchCycle) : m.punch.cycle = some x → Leaves p now c m
      { m with punch := { m.punch with cycle := some { x with magnets := false } } }
  | tapeFlag (low : Bool) (t : Ticks) : c = .tapeSensorFlagChange low t → m.punch.tapePresent = false →
      Leaves p now c m { m with punch := { m.punch with tapeLow := low } }

/-- `t` is what the command `c` leaves of `s`. -/
structure State.LeavesAs (c : Instr) (s t : State) : Prop extends State.Calm c s t where
  mech : Mech.Leaves s.loader.params s.now c s.mech t.mech

theorem State.LeavesAs.of_settled {c : Instr} {s u : State} (h : State.Runs c s u) :
    State.LeavesAs c s u.settle where
  toCalm := h.toCalm.trans (.of_eq rfl)
  mech := by
    rw [State.settle_mech, h.now, h.loader]
    exact .settled h.mech

theorem State.LeavesAs.of_calm {c : Instr} {s t : State} (h : State.Calm c s t) (hm : t.mech = s.mech) :
    State.LeavesAs c s t := ⟨h, by rw [hm]; exact .queue _ (.refl _)⟩

theorem State.LeavesAs.of_eq {c : Instr} {s t : State} (h : t.calm = s.calm) (hm : t.mech = s.mech) :
    State.LeavesAs c s t := .of_calm (.of_eq h) hm

theorem State.levelChanged_leaves {c : Instr} (hc : listens c = true) (s : State) (date : Ticks) :
    State.LeavesAs c s (s.levelChanged date) := by
  unfold State.levelChanged
  split
  · exact .of_eq rfl rfl
  · unfold State.toMark
    dsimp only
    refine .of_settled (State.Runs.trans ?_ (State.spaceEnded_runs _ _))
    split
    · exact .after (State.listen_runs hc _ _) rfl rfl
    · exact .of_eq rfl rfl
  · exact .of_eq rfl rfl

theorem State.copierWrites_leaves {c : Instr} (s : State) : State.LeavesAs c s s.copierWrites := by
  unfold State.copierWrites
  split
  · exact .of_eq rfl rfl
  · split
    · exact .of_eq rfl rfl
    · split
      · exact ⟨.of_eq rfl, .queue _ ⟨rfl, rfl, rfl, rfl, rfl, id⟩⟩
      · rename_i u hu
        refine .of_settled (State.Runs.trans ?_ (State.copierLooks_runs _))
        exact (State.offer_runs hu).before rfl rfl

theorem State.lineOpened_leaves {c : Instr} (hc : keys c = true) (s : State) (t : Ticks) :
    State.LeavesAs c s (s.lineOpened t) := by
  unfold State.lineOpened
  dsimp only
  refine .of_settled ?_
  have hbroken (r : Receiver) :
      State.Runs c s (({ s with receiver := r } : State).listenerBreak t).interrupt :=
    .after ((State.listenerBreak_runs _ t).trans (State.interrupt_runs _)) rfl rfl
  split
  · exact (hbroken _).trans (.afterKeyer hc (.refl _) rfl rfl rfl)
  · exact hbroken _

theorem State.supplyPoint_leaves {c : Instr} (hc : keys c = true) (s : State) (x : KeyedChar) :
    State.LeavesAs c s (s.supplyPoint x) := by
  have asked : State.Calm c s s.askHolder.1 ∧ s.askHolder.1.mech = s.mech := by
    unfold State.askHolder State.messageSupply State.answerSupply
    split
    · split
      · split <;> exact ⟨.of_eq rfl, rfl⟩
      · exact ⟨.of_eq rfl, rfl⟩
    · split
      · exact ⟨.of_eq rfl, rfl⟩
      · split <;> exact ⟨.of_eq rfl, rfl⟩
    · exact ⟨.of_eq rfl, rfl⟩
  exact .of_calm (asked.1.trans (.of_keyer hc rfl rfl)) asked.2

/-- Every command but START and CONFIG_READ_END moves the mechanism by the moves alone. -/
theorem Acts.leaves {c : Instr} {s t : State} (h : Acts c s t) : State.LeavesAs c s t := by
  cases h with
  | mech m hm => exact ⟨.of_eq rfl, .acted hm⟩
  | bellPulseEnd => exact ⟨.of_eq rfl, .bell⟩
  | punchPulseEnd x hx => exact ⟨.of_eq rfl, .magnets x hx⟩
  | tapeSensor low u hp => exact ⟨.of_eq rfl, .tapeFlag low u rfl hp⟩
  | shortRun | dataReading => exact .of_eq rfl rfl
  | attemptBegin | unitBoundary => exact .of_calm (.of_keyer rfl rfl rfl) rfl
  | level count date =>
    obtain ⟨hcalm, hm⟩ := State.levelChanged_leaves (c := .filteredLevelChange count date) rfl
      (s.runTaken count date) date
    exact ⟨.trans (t := s.runTaken count date) (.of_eq rfl) hcalm, hm⟩
  | startCentre start paused =>
    unfold State.startCentre
    split <;> exact .of_eq rfl rfl
  | stopReading start paused bits =>
    unfold State.stopReading
    split
    · exact .of_settled (.after (State.listen_runs rfl _ _) rfl rfl)
    · exact .of_eq rfl rfl
  | quiet date =>
    unfold State.quietReached
    exact .of_settled (.after (State.listenerQuiet_runs _ _ _) rfl rfl)
  | breakEvent u =>
    unfold State.breakReached
    exact .of_settled (.after ((State.listenerBreak_runs _ u).trans (State.interrupt_runs _)) rfl rfl)
  | lineOpen u => exact s.lineOpened_leaves rfl u
  | startAnswer a =>
    unfold State.startAnswer
    split
    · exact .of_calm (.of_keyer rfl rfl rfl) rfl
    · exact .of_eq rfl rfl
  | slottedEnd u => exact .of_settled (s.phaseOver_runs _ _)
  | freeTimeout u => exact .of_settled (s.phaseOver_runs _ _)
  | supplyPoint x => exact s.supplyPoint_leaves rfl x
  | stopElementEnd x u => exact .of_settled (s.stopElementOver_runs rfl _ _)
  | echoMismatch x u => exact .of_settled (s.mismatch_runs rfl _)
  | breakLimit since => exact .of_settled (s.spaceLimit_runs rfl)
  | keyDown k hc => exact .of_settled ((s.keyGoesDown_runs k).trans (State.routeDown_runs hc _))
  | keyUp k hc => exact .of_settled (.after (State.routeUp_runs hc _) rfl rfl)
  | mode d u => exact .of_settled (s.modeChanged_runs rfl)
  | takeKey act k rest hc => exact .of_settled (.after (keyAction_runs hc k _) rfl rfl)
  | copierWrite => exact s.copierWrites_leaves
  | noticeWrite => exact .of_settled s.testNotice_runs

end Sys2Proof.Machine
end

section
/-! What every move of the mechanism keeps: the shape of an invariant of the mechanism, and the invariants of its
inputs, its faults, its motor, its printer and its punch. -/

namespace Sys2Proof.Machine

open Sys2Proof

/-- Coming to rest changes the queue and the punch's in-run flag only (R99, R128). -/
theorem Mech.rest_eq (m : Mech) :
    ∃ q b, m.rest = { m with queue := q, punch := { m.punch with inRun := b } } := by
  unfold Mech.rest
  dsimp only
  split
  · exact ⟨_, _, rfl⟩
  · exact ⟨_, m.punch.inRun, rfl⟩

/-- `P` goes through what the readers, a write, a bell request and motor control do at any command. -/
structure Mech.Kept (p : Params) (now : Ticks) (P : Mech → Prop) : Prop where
  rest : ∀ m q b, P m → P { m with queue := q, punch := { m.punch with inRun := b } }
  move : ∀ m n, P m → m.printStep p now = some n → P n
  take : ∀ m n, P m → m.punchStep p now = some n → P n
  printStand : ∀ m, P m → P m.printStand
  ring : ∀ m, P m → P { m with printer := m.printer.ring now }
  startEvent : ∀ m, P m → P { m with motor := m.motor.startEvent p now }
  restartIdle : ∀ m, P m → P { m with motor := m.motor.restartIdle p now }

namespace Mech.Kept

variable {p : Params} {now : Ticks} {c : Instr} {P : Mech → Prop}

theorem queue (k : Mech.Kept p now P) (m : Mech) (q : CopyQueue) (h : P m) : P { m with queue := q } :=
  k.rest m q m.punch.inRun h

theorem rested (k : Mech.Kept p now P) (m : Mech) (h : P m) : P m.rest := by
  obtain ⟨q, b, hr⟩ := m.rest_eq
  rw [hr]
  exact k.rest m q b h

theorem pump (k : Mech.Kept p now P) (m : Mech) (h : P m) : P (m.pump p now) :=
  Mech.pump_induct P k.move k.take m h

theorem write (k : Mech.Kept p now P) (m : Mech) (e : Entry) (h : P m) : P (m.write p now e) :=
  k.pump _ (k.rested _ (k.queue m _ h))

/-- What `P` is behind the moves of the command `c`, where it goes through what `c` alone does. -/
theorem goes (k : Mech.Kept p now P) (own : ∀ m n, P m → MechOwn p now c m n → P n) {m n : Mech}
    (h : Mech.Goes p now c m n) (hm : P m) : P n :=
  h.keeps hm (fun m q _ => k.queue m q) k.write k.ring k.startEvent
    (fun m hm => k.restartIdle { m with motor := m.motor.startEvent p now } (k.startEvent m hm)) own

/-- What settling leaves, where `P` holds once the printer stands (R105, R121), and `Q` is what `P` becomes once the
punch stands (R126). -/
theorem settle {Q : Mech → Prop} (k : Mech.Kept p now P) (stand : ∀ m, P m → Q m.punchStand)
    (startEvent : ∀ m, Q m → Q { m with motor := m.motor.startEvent p now })
    (watch : ∀ m, Q m → Q (m.watchIdle p now)) (m : Mech) (h : P m.printStand) :
    Q (m.settle p now) := by
  refine watch _ ?_
  have hstood : Q (((m.printStand.pump p now).printStand).punchStand) :=
    stand _ (k.printStand _ (k.pump _ h))
  unfold Mech.lookAtDemand
  split
  · exact startEvent _ hstood
  · exact hstood

end Mech.Kept

/-! ### The moves of the readers at the printer and the punch -/

/-- An established column lies within 1 and the line length (R116). -/
def Printer.columnWithin (p : Params) (r : Printer) : Prop :=
  1 ≤ p.lineLength ∧ r.column.all (fun c => 1 ≤ c && c ≤ p.lineLength) = true

theorem Printer.columnWithin_iff {p : Params} {r : Printer} :
    r.columnWithin p ↔ 1 ≤ p.lineLength ∧ ∀ c, r.column = some c → 1 ≤ c ∧ c ≤ p.lineLength := by
  simp [Printer.columnWithin, Option.all_eq_true]

/-- A step from a column below the end stays within the line (R113, R115). -/
theorem Printer.columnWithin_step {p : Params} {r : Printer} (h : r.columnWithin p)
    (hb : r.belowEnd p = true) : ({ r with column := r.column.map (· + 1) } : Printer).columnWithin p := by
  rw [Printer.columnWithin_iff] at h ⊢
  refine ⟨h.1, fun c hc => ?_⟩
  cases hcol : r.column with
  | none => simp [hcol] at hc
  | some a =>
    simp only [Printer.belowEnd, hcol, decide_eq_true_eq] at hb
    simp only [hcol, Option.map_some, Option.some.injEq] at hc
    omega

/-- What the printer's moves leave of it: the state, the pending stop, the wheel and the paper, and the column within
the line. -/
structure Printer.Steady (p : Params) (r r' : Printer) : Prop where
  state : r'.state = r.state
  stop : r'.stop = r.stop
  wheel : r'.wheel = r.wheel
  mismatches : r'.mismatches = r.mismatches
  paper : r'.paper = r.paper
  column : r.columnWithin p → r'.columnWithin p

theorem Printer.issue_steady {p : Params} {now : Ticks} {r r' : Printer} {op : PrintOp}
    (h : Printer.issue p now r op = some r') : r.Steady p r' := by
  obtain ⟨hstate, hstop, hwheel, -, hmismatches, hpaper, -⟩ := Printer.issue_frame h
  refine ⟨hstate, hstop, hwheel, hmismatches, hpaper, fun hcol => ?_⟩
  cases op with
  | strike target => cases h
  | space =>
    simp only [Printer.issue] at h
    split at h
    · cases h
      split
      · split
        · exact Printer.columnWithin_step hcol ‹_›
        · exact hcol
      · split
        · exact Printer.columnWithin_step hcol ‹_›
        · exact hcol
    · cases h
  | newline =>
    simp only [Printer.issue] at h
    split at h
    · cases h; exact hcol
    · cases h
  | ret =>
    simp only [Printer.issue] at h
    split at h
    · cases h
      split
      · exact ⟨hcol.1, by simpa using hcol.1⟩
      · exact hcol
    · cases h

theorem Printer.instant_steady (p : Params) {now : Ticks} {r r' : Printer} {e : Entry}
    (h : r.instant now e = some r') : r.Steady p r' := by
  unfold Printer.instant at h
  split at h
  · cases h; exact ⟨rfl, rfl, rfl, rfl, rfl, id⟩
  · cases h; exact ⟨rfl, rfl, rfl, rfl, rfl, id⟩
  · cases h
  · simp only [Option.ite_none_left_eq_some] at h
    obtain ⟨-, h⟩ := h
    split at h
    · split at h <;> cases h <;> exact ⟨rfl, rfl, rfl, rfl, rfl, id⟩
    · split at h
      · cases h; exact ⟨rfl, rfl, rfl, rfl, rfl, id⟩
      · split at h
        · cases h; exact ⟨rfl, rfl, rfl, rfl, rfl, id⟩
        · split at h
          · cases h; exact ⟨rfl, rfl, rfl, rfl, rfl, id⟩
          · split at h <;> cases h
            exact ⟨rfl, rfl, rfl, rfl, rfl, id⟩

/-- A move of the printer leaves it steady, and the motor and the punch as they were but for the in-run flag. -/
theorem Mech.printStep_keeps {p : Params} {now : Ticks} {m n : Mech} (h : m.printStep p now = some n) :
    m.printer.Steady p n.printer ∧ n.motor = m.motor ∧ ∃ b, n.punch = { m.punch with inRun := b } := by
  obtain ⟨-, ⟨op, rest, r, -, hr, rfl⟩ | ⟨-, -, rfl⟩ | ⟨op, -, -, -, -, rfl⟩ |
    ⟨op, r, -, -, -, -, hr, rfl⟩ | ⟨e, r, -, -, -, -, hr, rfl⟩ | ⟨e, -, -, -, -, -, rfl⟩⟩ :=
    Mech.printStep_cases h
  · obtain ⟨hstate, hstop, hwheel, hmismatches, hpaper, hcol⟩ := Printer.issue_steady hr
    exact ⟨⟨hstate, hstop, hwheel, hmismatches, hpaper, hcol⟩, rfl, _, rfl⟩
  · exact ⟨⟨rfl, rfl, rfl, rfl, rfl, id⟩, rfl, _, rfl⟩
  · exact ⟨⟨rfl, rfl, rfl, rfl, rfl, id⟩, rfl, _, rfl⟩
  · obtain ⟨b, hb⟩ := Mech.rest_punch
      { m with printer := { r with head := none, heldControl := false }
               queue := { m.queue with printAt := m.queue.printAt + 1 } }
    obtain ⟨hstate, hstop, hwheel, hmismatches, hpaper, hcol⟩ := Printer.issue_steady hr
    rw [Mech.printTake_printer]
    exact ⟨⟨hstate, hstop, hwheel, hmismatches, hpaper, hcol⟩, by simp, b, hb⟩
  · obtain ⟨b, hb⟩ := Mech.rest_punch
      { m with printer := r, queue := { m.queue with printAt := m.queue.printAt + 1 } }
    rw [Mech.printTake_printer]
    exact ⟨Printer.instant_steady p hr, by simp, b, hb⟩
  · exact ⟨⟨rfl, rfl, rfl, rfl, rfl, id⟩, rfl, _, rfl⟩

/-- A take of the punch leaves the printer and the motor; the punch takes it while it works and has no cycle in
flight, and holds a cycle behind it, or is as it was, or ends a run on low tape in TAPE-OUT (R128, R133). -/
theorem Mech.punchStep_keeps {p : Params} {now : Ticks} {m n : Mech} (h : m.punchStep p now = some n) :
    m.punching = true ∧ n.printer = m.printer ∧ n.motor = m.motor ∧
      ((∃ row b, n.punch = { m.punch with cycle := some (Punch.cycleFor p now row), inRun := b }) ∨
        (∃ b, n.punch = { m.punch with inRun := b }) ∨
        ∃ b, m.punch.state = .tapeLowFinish ∧ n.punch = { m.punch with inRun := b, state := .tapeOut }) := by
  obtain ⟨hp, e, -, ⟨row, -, rfl⟩ | ⟨-, rfl⟩⟩ := Mech.punchStep_cases h
  · obtain ⟨b, hb⟩ := Mech.rest_punch
      { m with punch := { m.punch with cycle := some (Punch.cycleFor p now row) }
               queue := { m.queue with punchAt := m.queue.punchAt + 1 } }
    exact ⟨hp, by simp, by simp, .inl ⟨row, b, hb⟩⟩
  · obtain ⟨b, hb⟩ := Mech.rest_punch
      { m with punch := { m.punch with
                 inRun := e == .runStart
                 state := if m.punch.state = .tapeLowFinish ∧ e = .runEnd then .tapeOut
                   else m.punch.state }
               queue := { m.queue with punchAt := m.queue.punchAt + 1 } }
    refine ⟨hp, by simp, by simp, .inr ?_⟩
    by_cases hlow : m.punch.state = .tapeLowFinish ∧ e = .runEnd
    · exact .inr ⟨b, hlow.1, hb.trans (by simp only [if_pos hlow])⟩
    · exact .inl ⟨b, hb.trans (by simp only [if_neg hlow])⟩

end Sys2Proof.Machine

namespace Sys2Proof.Machine

open Sys2Proof

/-! ### The clock and the waiting commands -/

/-- No command stops the part (assumption 29). -/
theorem exec_answers (c : Instr) (s : State) : ∃ t, exec c s = .next t := by
  cases c with
  | startCentreSample | dataUnitSample | stopSample | markLastingQ | breakEvent | lineOpen
  | answerStartInstant | attemptBegin | keyerSupplyPoint | keyerStopElementEnd | keyerUnitBoundary
  | echoMismatch | breakLimit | hammerPulseEnd | hammerRecoveryEnd | carriageStepEnd | lineTimeEnd
  | returnTimeout | bellPulseEnd | punchPulseEnd | punchDone | punchCycleTimeout | runUpExpiry
  | idleTimerExpiry =>
    simp only [exec, execStartCentreSample, execDataUnitSample, execStopSample, execMarkLastingQ,
      execBreakEvent, execLineOpen, execAnswerStartInstant, execAttemptBegin, execKeyerSupplyPoint,
      execKeyerStopElementEnd, execKeyerUnitBoundary, execEchoMismatch, execBreakLimit,
      execHammerPulseEnd, execHammerRecoveryEnd, execCarriageStepEnd, execLineTimeEnd,
      execReturnTimeout, execBellPulseEnd, execPunchPulseEnd, execPunchDone, execPunchCycleTimeout,
      execRunUpExpiry, execIdleTimerExpiry]
    split <;> exact ⟨_, rfl⟩
  | _ => exact ⟨_, rfl⟩

/-- Settles O2: `exec_cases` and `Acts.leaves` say what a command leaves. -/
theorem everyCommandAnswersANextState : Obligations.EveryCommandAnswersANextState := by
  intro c s
  obtain ⟨t, ht⟩ := exec_answers c s
  refine ⟨t, ht, ?_⟩
  rcases exec_cases ht with rfl | ⟨-, rfl⟩ | ⟨bits, pins, u, -, -, -, rfl⟩ | ⟨-, u, hact⟩
  · exact ⟨rfl, Nat.le_refl _⟩
  · exact ⟨rfl, Nat.le_refl _⟩
  · exact ⟨rfl, Nat.le_max_left _ _⟩
  · exact ⟨hact.leaves.pending, hact.leaves.now ▸ Nat.le_max_left _ _⟩

end Sys2Proof.Machine
end

section
/-! What follows an input follows it only at the events of that input. -/

namespace Sys2Proof.Machine

open Sys2Proof

/-! ### Inputs of the mechanism -/

/-- The switch and the tape flags of the punch. -/
def Punch.flags (u : Punch) : PunchSwitch × Bool × Bool := (u.switch, u.tapePresent, u.tapeLow)

/-- What the mechanism holds of its inputs: the mode, the speed flag, the paper flag, the wheel count, and the punch's
switch and tape flags. -/
def Mech.inputs (m : Mech) : Mode × Bool × Bool × Nat × PunchSwitch × Bool × Bool :=
  (m.motor.mode, m.motor.speedOk, m.printer.paper, m.printer.wheel, m.punch.flags)

theorem Motor.startEvent_inputs (p : Params) (now : Ticks) (d : Motor) :
    (d.startEvent p now).mode = d.mode ∧ (d.startEvent p now).speedOk = d.speedOk := by
  unfold Motor.startEvent; split <;> exact ⟨rfl, rfl⟩

theorem Motor.restartIdle_inputs (p : Params) (now : Ticks) (d : Motor) :
    (d.restartIdle p now).mode = d.mode ∧ (d.restartIdle p now).speedOk = d.speedOk := by
  unfold Motor.restartIdle; split <;> exact ⟨rfl, rfl⟩

theorem Mech.printStand_inputs (m : Mech) : m.printStand.inputs = m.inputs := by
  obtain ⟨st, x, h⟩ := m.printStand_printer
  simp [Mech.inputs, h]

theorem Mech.punchStand_inputs (m : Mech) : m.punchStand.inputs = m.inputs := by
  obtain ⟨st, h⟩ := m.punchStand_punch
  simp [Mech.inputs, Punch.flags, h]

theorem Mech.startEvent_inputs (p : Params) (now : Ticks) (m : Mech) :
    ({ m with motor := m.motor.startEvent p now } : Mech).inputs = m.inputs := by
  obtain ⟨hmode, hspeed⟩ := m.motor.startEvent_inputs p now
  simp [Mech.inputs, hmode, hspeed]

/-- The inputs are touched by no reader, no write and no motor control. -/
theorem Mech.inputs_kept (p : Params) (now : Ticks)
    (x : Mode × Bool × Bool × Nat × PunchSwitch × Bool × Bool) :
    Mech.Kept p now (fun m => m.inputs = x) where
  rest _ _ _ h := h
  move m n h hn := by
    obtain ⟨⟨-, -, hwheel, -, hpaper, -⟩, hmotor, b, hpunch⟩ := Mech.printStep_keeps hn
    rw [← h]
    simp [Mech.inputs, Punch.flags, hwheel, hpaper, hmotor, hpunch]
  take m n h hn := by
    obtain ⟨-, hprinter, hmotor, ⟨_, b, hpunch⟩ | ⟨b, hpunch⟩ | ⟨b, -, hpunch⟩⟩ := Mech.punchStep_keeps hn
    all_goals
      rw [← h]
      simp [Mech.inputs, Punch.flags, hprinter, hmotor, hpunch]
  printStand m h := m.printStand_inputs.trans h
  ring _ h := h
  startEvent m h := (m.startEvent_inputs p now).trans h
  restartIdle m h := by
    obtain ⟨hmode, hspeed⟩ := m.motor.restartIdle_inputs p now
    rw [← h]
    simp [Mech.inputs, hmode, hspeed]

theorem Mech.settle_inputs (p : Params) (now : Ticks) (m : Mech) : (m.settle p now).inputs = m.inputs :=
  (Mech.inputs_kept p now m.inputs).settle (fun n h => n.punchStand_inputs.trans h)
    (fun n h => (n.startEvent_inputs p now).trans h) (fun _ h => h) m m.printStand_inputs

/-! ### What each part's own events do to them -/

theorem Printer.contact_inputs (r : Printer) : r.contact.paper = r.paper ∧ r.contact.wheel = r.wheel := by
  unfold Printer.contact; split <;> exact ⟨rfl, rfl⟩

theorem Printer.returnExpired_inputs (r : Printer) :
    r.returnExpired.paper = r.paper ∧ r.returnExpired.wheel = r.wheel := by
  unfold Printer.returnExpired; split <;> exact ⟨rfl, rfl⟩

theorem Printer.clearFault_inputs (running : Bool) (r : Printer) :
    (r.clearFault running).paper = r.paper ∧ (r.clearFault running).wheel = r.wheel := by
  unfold Printer.clearFault; split <;> exact ⟨rfl, rfl⟩

theorem Printer.motorLeft_inputs (r : Printer) : r.motorLeft.paper = r.paper ∧ r.motorLeft.wheel = r.wheel := by
  unfold Printer.motorLeft
  split
  · exact ⟨rfl, rfl⟩
  · split <;> exact ⟨rfl, rfl⟩
  · exact ⟨rfl, rfl⟩

theorem Printer.motorReached_inputs (r : Printer) :
    r.motorReached.paper = r.paper ∧ r.motorReached.wheel = r.wheel := by
  unfold Printer.motorReached
  split
  · exact ⟨rfl, rfl⟩
  · split <;> exact ⟨rfl, rfl⟩
  · exact ⟨rfl, rfl⟩

theorem Printer.paperGone_inputs (r : Printer) :
    r.paperGone.paper = false ∧ r.paperGone.wheel = r.wheel := by
  unfold Printer.paperGone
  dsimp only
  split
  · exact ⟨rfl, rfl⟩
  · exact ⟨rfl, rfl⟩
  · split <;> exact ⟨rfl, rfl⟩
  · exact ⟨rfl, rfl⟩

theorem Printer.paperBack_inputs (running : Bool) (r : Printer) :
    (r.paperBack running).paper = true ∧ (r.paperBack running).wheel = r.wheel := by
  unfold Printer.paperBack
  dsimp only
  split <;> exact ⟨rfl, rfl⟩

theorem Printer.wheelEvent_paper (index : Bool) (r : Printer) : (r.wheelEvent index).paper = r.paper := by
  unfold Printer.wheelEvent
  split
  · rfl
  · split
    · rfl
    · split
      · rfl
      · dsimp only
        split <;> rfl

theorem Punch.feedCycle_flags (p : Params) (now : Ticks) (u : Punch) :
    (u.feedCycle p now).flags = u.flags := rfl

theorem Punch.complete_flags (p : Params) (now : Ticks) (u : Punch) :
    (u.complete p now).flags = u.flags := by
  unfold Punch.complete
  dsimp only
  split
  · split <;> rfl
  · split
    · rfl
    · split
      · rfl
      · split <;> split <;> rfl
  · rfl

theorem Punch.lowTape_flags (u : Punch) : u.lowTape.flags = (u.switch, true, true) := by
  unfold Punch.lowTape
  dsimp only
  split
  · split <;> rfl
  · split <;> rfl
  all_goals rfl

theorem Punch.goneTape_flags (u : Punch) : u.goneTape.flags = (u.switch, false, u.tapeLow) := by
  unfold Punch.goneTape
  dsimp only
  split
  case _ => rfl
  case _ => rfl
  case _ => rfl
  · split <;> rfl
  all_goals rfl

theorem Punch.newTape_flags (running : Bool) (u : Punch) :
    (u.newTape running).flags = (u.switch, true, false) := by
  unfold Punch.newTape
  dsimp only
  split
  · rfl
  · split <;> rfl
  · rfl

theorem Punch.clearFault_flags (running : Bool) (u : Punch) : (u.clearFault running).flags = u.flags := by
  unfold Punch.clearFault; split <;> rfl

theorem Punch.feedDown_flags (p : Params) (now : Ticks) (u : Punch) :
    (u.feedDown p now).flags = u.flags := by
  unfold Punch.feedDown
  split
  · rfl
  · split <;> rfl

theorem Punch.motorLeft_flags (u : Punch) : u.motorLeft.flags = u.flags := by
  unfold Punch.motorLeft; dsimp only; split <;> rfl

theorem Punch.motorReached_flags (p : Params) (now : Ticks) (u : Punch) :
    (u.motorReached p now).flags = u.flags := by
  unfold Punch.motorReached
  split
  · split
    · split <;> rfl
    · rfl
  · rfl
  · rfl

/-! ### The inputs within one command -/

/-- What the mechanism holds of its inputs differs from `m` to `n` only by the event that the command `c` is. -/
structure Mech.InputsFollow (c : Instr) (m n : Mech) : Prop where
  mode : n.motor.mode = m.motor.mode ∨ ∃ u, c = .modeEvent n.motor.mode u
  speedOk : n.motor.speedOk = m.motor.speedOk ∨ ∃ u, c = .speedOkChange n.motor.speedOk u
  paper : n.printer.paper = m.printer.paper ∨
    ∃ u, c = .paperOut u ∧ n.printer.paper = false ∨ c = .paperIn u ∧ n.printer.paper = true
  wheel : n.printer.wheel = m.printer.wheel ∨ ∃ index u, c = .wheelPositionEvent index u
  switch : n.punch.switch = m.punch.switch ∨
    ∃ a b u, c = .punchSwitchEvent a b u ∧ n.punch.switch = switchPosition a b
  tapePresent : n.punch.tapePresent = m.punch.tapePresent ∨
    ∃ u, c = .tapeGone u ∧ n.punch.tapePresent = false ∨
      (c = .tapeLow u ∨ c = .tapeReplaced u) ∧ n.punch.tapePresent = true
  tapeLow : n.punch.tapeLow = m.punch.tapeLow ∨
    ∃ u, c = .tapeLow u ∧ n.punch.tapeLow = true ∨ c = .tapeReplaced u ∧ n.punch.tapeLow = false ∨
      c = .tapeSensorFlagChange n.punch.tapeLow u

namespace Mech.InputsFollow

variable {c : Instr} {m n k : Mech}

theorem of_eq (h : n.inputs = m.inputs) : InputsFollow c m n := by
  simp only [Mech.inputs, Punch.flags, Prod.mk.injEq] at h
  obtain ⟨hmode, hspeed, hpaper, hwheel, hswitch, hpresent, hlow⟩ := h
  exact ⟨.inl hmode, .inl hspeed, .inl hpaper, .inl hwheel, .inl hswitch, .inl hpresent, .inl hlow⟩

theorem trans (h : InputsFollow c m n) (g : InputsFollow c n k) : InputsFollow c m k where
  mode := g.mode.elim (fun e => by rw [e]; exact h.mode) .inr
  speedOk := g.speedOk.elim (fun e => by rw [e]; exact h.speedOk) .inr
  paper := g.paper.elim (fun e => by rw [e]; exact h.paper) .inr
  wheel := g.wheel.elim (fun e => by rw [e]; exact h.wheel) .inr
  switch := g.switch.elim (fun e => by rw [e]; exact h.switch) .inr
  tapePresent := g.tapePresent.elim (fun e => by rw [e]; exact h.tapePresent) .inr
  tapeLow := g.tapeLow.elim (fun e => by rw [e]; exact h.tapeLow) .inr

/-- At an event of the printer that leaves the wheel. -/
theorem of_printer {r : Printer} (hwheel : r.wheel = m.printer.wheel)
    (hpaper : r.paper = m.printer.paper ∨
      ∃ u, c = .paperOut u ∧ r.paper = false ∨ c = .paperIn u ∧ r.paper = true) :
    InputsFollow c m { m with printer := r } :=
  ⟨.inl rfl, .inl rfl, hpaper, .inl hwheel, .inl rfl, .inl rfl, .inl rfl⟩

theorem of_punch {u : Punch} (h : u.flags = m.punch.flags) : InputsFollow c m { m with punch := u } :=
  of_eq (by simp only [Mech.inputs, h])

end Mech.InputsFollow

theorem Mech.wheelEvent_inputs (p : Params) (now : Ticks) (index : Bool) (m : Mech) :
    (m.wheelEvent p now index).motor = m.motor ∧
      (m.wheelEvent p now index).printer.paper = m.printer.paper ∧
      (m.wheelEvent p now index).punch.flags = m.punch.flags := by
  unfold Mech.wheelEvent
  dsimp only
  split
  · obtain ⟨b, hb⟩ := Mech.rest_punch
      { m with printer := (m.printer.wheelEvent index).fire p now
               queue := { m.queue with printAt := m.queue.printAt + 1 } }
    refine ⟨by simp, ?_, ?_⟩
    · rw [Mech.printTake_printer]
      exact Printer.wheelEvent_paper index m.printer
    · rw [Mech.printTake, hb]
      rfl
  · exact ⟨rfl, Printer.wheelEvent_paper index m.printer, rfl⟩

theorem Mech.motorReaches_inputs (p : Params) (now : Ticks) (m : Mech) :
    (m.motorReaches p now).inputs = m.inputs := by
  obtain ⟨hpaper, hwheel⟩ := m.printer.motorReached_inputs
  simp only [Mech.inputs, Mech.motorReaches, hpaper, hwheel, Punch.motorReached_flags]

theorem Mech.motorLeaves_inputs (target : MotorState) (m : Mech) :
    (m.motorLeaves target).inputs = m.inputs := by
  obtain ⟨hpaper, hwheel⟩ := m.printer.motorLeft_inputs
  simp only [Mech.inputs, Mech.motorLeaves, hpaper, hwheel, Punch.motorLeft_flags]

/-- The event that a command is follows its own input. -/
theorem MechAct.inputs {p : Params} {now : Ticks} {c : Instr} {m n : Mech} (h : MechAct p now m c n) :
    Mech.InputsFollow c m n := by
  cases h with
  | wheel index t =>
    obtain ⟨hmotor, hpaper, hpunch⟩ := m.wheelEvent_inputs p now index
    simp only [Punch.flags, Prod.mk.injEq] at hpunch
    obtain ⟨hswitch, hpresent, hlow⟩ := hpunch
    exact ⟨.inl (by rw [hmotor]), .inl (by rw [hmotor]), .inl hpaper, .inr ⟨index, t, rfl⟩, .inl hswitch,
      .inl hpresent, .inl hlow⟩
  | hammerPulse | hammerRecovery | carriageStep | lineTime => exact .of_printer rfl (.inl rfl)
  | marginContact =>
    exact .of_printer m.printer.contact_inputs.2 (.inl m.printer.contact_inputs.1)
  | returnTimeout =>
    exact .of_printer m.printer.returnExpired_inputs.2 (.inl m.printer.returnExpired_inputs.1)
  | paperOut t =>
    exact .of_printer m.printer.paperGone_inputs.2 (.inr ⟨t, .inl ⟨rfl, m.printer.paperGone_inputs.1⟩⟩)
  | paperIn t =>
    exact .of_printer (m.printer.paperBack_inputs _).2
      (.inr ⟨t, .inr ⟨rfl, (m.printer.paperBack_inputs _).1⟩⟩)
  | punchSwitch a b t =>
    obtain ⟨q, x, hr⟩ := Mech.rest_eq { m with punch := m.punch.setSwitch (switchPosition a b) }
    rw [hr]
    exact ⟨.inl rfl, .inl rfl, .inl rfl, .inl rfl, .inr ⟨a, b, t, rfl, rfl⟩, .inl rfl, .inl rfl⟩
  | punchDone => exact .of_punch (m.punch.complete_flags p now)
  | punchTimeout => exact .of_punch rfl
  | tapeLow t =>
    have hflags := m.punch.lowTape_flags
    simp only [Punch.flags, Prod.mk.injEq] at hflags
    obtain ⟨hswitch, hpresent, hlow⟩ := hflags
    exact ⟨.inl rfl, .inl rfl, .inl rfl, .inl rfl, .inl hswitch,
      .inr ⟨t, .inr ⟨.inl rfl, hpresent⟩⟩, .inr ⟨t, .inl ⟨rfl, hlow⟩⟩⟩
  | tapeGone t =>
    have hflags := m.punch.goneTape_flags
    simp only [Punch.flags, Prod.mk.injEq] at hflags
    obtain ⟨hswitch, hpresent, hlow⟩ := hflags
    exact ⟨.inl rfl, .inl rfl, .inl rfl, .inl rfl, .inl hswitch, .inr ⟨t, .inl ⟨rfl, hpresent⟩⟩,
      .inl hlow⟩
  | tapeReplaced t =>
    have hflags := m.punch.newTape_flags (m.motor.state == .running)
    simp only [Punch.flags, Prod.mk.injEq] at hflags
    obtain ⟨hswitch, hpresent, hlow⟩ := hflags
    exact ⟨.inl rfl, .inl rfl, .inl rfl, .inl rfl, .inl hswitch,
      .inr ⟨t, .inr ⟨.inr rfl, hpresent⟩⟩, .inr ⟨t, .inr (.inl ⟨rfl, hlow⟩)⟩⟩
  | runUp =>
    unfold Mech.runUpExpired
    split
    · exact .of_eq (m.motorReaches_inputs p now)
    · exact .of_eq rfl
  | speedOk ok t =>
    refine Mech.InputsFollow.trans (n := { m with motor := { m.motor with speedOk := ok } })
      ⟨.inl rfl, .inr ⟨t, rfl⟩, .inl rfl, .inl rfl, .inl rfl, .inl rfl, .inl rfl⟩ ?_
    unfold Mech.speedChanged
    dsimp only
    split
    · exact .of_eq (Mech.motorLeaves_inputs _ _)
    · exact .of_eq rfl
  | idleTimer => exact .of_eq (m.motorLeaves_inputs _)

/-- What a command of the keyboard or the mode switch does follows its own input. -/
theorem MechOwn.inputs {p : Params} {now : Ticks} {c : Instr} {m n : Mech} (h : MechOwn p now c m n) :
    Mech.InputsFollow c m n := by
  cases h with
  | clear =>
    obtain ⟨hpaper, hwheel⟩ := m.printer.clearFault_inputs (m.motor.state == .running)
    have hmotor : m.motor.clearFault.mode = m.motor.mode ∧ m.motor.clearFault.speedOk = m.motor.speedOk := by
      unfold Motor.clearFault; split <;> exact ⟨rfl, rfl⟩
    exact .of_eq (by simp only [Mech.inputs, Mech.cleared, hpaper, hwheel, hmotor, Punch.clearFault_flags])
  | feedDown => exact .of_punch (m.punch.feedDown_flags p now)
  | feedUp => exact .of_punch rfl
  | mode d t hc =>
    obtain ⟨hmode, hspeed⟩ := Motor.restartIdle_inputs p now { m.motor with mode := d }
    exact ⟨.inr ⟨t, by rw [hc, hmode]⟩, .inl hspeed, .inl rfl, .inl rfl, .inl rfl, .inl rfl, .inl rfl⟩

theorem Mech.Goes.inputs {p : Params} {now : Ticks} {c : Instr} {m n : Mech}
    (h : Mech.Goes p now c m n) : Mech.InputsFollow c m n :=
  h.keeps (P := Mech.InputsFollow c m) (.of_eq rfl) (fun _ _ _ hn => hn.trans (.of_eq rfl))
    (fun n e hn => hn.trans (.of_eq ((Mech.inputs_kept p now n.inputs).write n e rfl)))
    (fun _ hn => hn.trans (.of_eq rfl))
    (fun n hn => hn.trans (.of_eq (n.startEvent_inputs p now)))
    (fun n hn => hn.trans (.of_eq ((Mech.inputs_kept p now n.inputs).restartIdle
      { n with motor := n.motor.startEvent p now } (n.startEvent_inputs p now))))
    (fun _ _ hn ho => hn.trans ho.inputs)

theorem Mech.Leaves.inputs {p : Params} {now : Ticks} {c : Instr} {m n : Mech}
    (h : Mech.Leaves p now c m n) : Mech.InputsFollow c m n := by
  cases h with
  | acted h => exact h.inputs.trans (.of_eq (Mech.settle_inputs p now _))
  | settled h => exact h.inputs.trans (.of_eq (Mech.settle_inputs p now _))
  | queue q => exact .of_eq rfl
  | bell => exact .of_eq rfl
  | magnets x hx => exact .of_punch rfl
  | tapeFlag low t hc =>
    exact ⟨.inl rfl, .inl rfl, .inl rfl, .inl rfl, .inl rfl, .inl rfl, .inr ⟨t, .inr (.inr hc)⟩⟩

/-- Settles O8: what a command leaves of the mechanism follows its own input, and nothing but START and
CONFIG_READ_END touches the loader. -/
theorem inputFlagsFollowOnlyTheirEvents : Obligations.InputFlagsFollowOnlyTheirEvents := by
  intro c s t ht hw hstart
  have follows : t.loader = s.loader ∧ Mech.InputsFollow c s.mech t.mech := by
    rcases exec_cases ht with rfl | ⟨hc, -⟩ | ⟨_, _, _, -, hread, -, -⟩ | ⟨-, u, hact⟩
    · exact ⟨rfl, .of_eq rfl⟩
    · exact absurd hc hstart
    · exact absurd hw (Bool.eq_false_iff.mp hread)
    · exact ⟨hact.leaves.loader, hact.leaves.mech.inputs⟩
  obtain ⟨hl, hmode, hspeed, hpaper, hwheel, hswitch, hpresent, hlow⟩ := follows
  refine ⟨hl, fun h => ?_, hswitch.resolve_left, fun h => ?_, hpaper.resolve_left, hwheel.resolve_left,
    hpresent.resolve_left, hlow.resolve_left⟩
  · obtain ⟨u, hc⟩ := hmode.resolve_left h
    exact ⟨_, u, hc, rfl⟩
  · obtain ⟨u, hc⟩ := hspeed.resolve_left h
    exact ⟨_, u, hc, rfl⟩

end Sys2Proof.Machine
end

section
/-! The sequence counter and the keyer at every command. -/

namespace Sys2Proof.Machine

open Sys2Proof

/-! ### The sequence counter (R44) -/

theorem State.closeOpenText_transmitter (s : State) : s.closeOpenText.transmitter = s.transmitter := by
  unfold State.closeOpenText
  split
  · obtain ⟨_, _, _, _, h⟩ := State.copierLooks_frame
      { s with table := onLast (fun r => { r with body := .text false }) s.table }
    rw [h]
  · rfl

/-- CALL moves the sequence counter by 1, or leaves it (R44, R148). -/
theorem State.callTaken_seq (s : State) : s.callTaken.transmitter.seq = s.transmitter.seq ∨
    s.callTaken.transmitter.seq = s.transmitter.seq + 1 := by
  unfold State.callTaken
  split
  · unfold State.callInLocal
    split
    · exact .inl (by simp)
    · exact .inr (congrArg (·.seq + 1) s.closeOpenText_transmitter)
  · exact .inl (by simp)
  · exact .inl rfl
  · exact .inl rfl

/-- Settles O5: only CALL touches the counter, and takes its key to do so. -/
theorem sequenceCounterMovesOnlyAtCall : Obligations.SequenceCounterMovesOnlyAtCall := by
  intro c s t ht hstart hseq
  rcases exec_cases ht with rfl | ⟨hc, -⟩ | ⟨_, _, _, -, -, -, rfl⟩ | ⟨-, u, hact⟩
  · exact absurd rfl hseq
  · exact absurd hc hstart
  · exact absurd rfl hseq
  · by_cases hc : c = .callKey
    · subst hc
      refine ⟨rfl, ?_⟩
      cases hact with
      | mech m hm => exact absurd rfl hseq
      | keyDown k hk | keyUp k hk => cases hk
      | takeKey act k rest ha hq =>
        cases ha
        rcases State.callTaken_seq { s.at u with keyboard := { (s.at u).keyboard with queue := rest } } with
          h | h
        · exact absurd (by simpa using h) hseq
        · have hnext : (State.settle (State.callTaken
              { s.at u with keyboard := { (s.at u).keyboard with queue := rest } })).transmitter.seq =
              s.transmitter.seq + 1 := by simpa using h
          rw [hnext]
          exact Fin.val_add _ _
    · exact absurd (hact.leaves.seq hc) hseq

/-! ### The keyer (R25, R36 to R38) -/

/-- The relations of the keyer's own parts (R25, R36 to R38): what `State.keyerSafe` asks of it. -/
def Keyer.Safe (k : Keyer) : Prop :=
  (k.holder = .none → k.current = none ∧ k.spaceSince = none) ∧
    (k.holder = .breakKey → k.current = none ∧ k.spaceSince.isSome = true) ∧
    (k.holder = .message ∨ k.holder = .answer → k.current.isSome = true) ∧
    k.current.all (fun c => k.spaceSince.isSome == (keyedLevel c.code c.unit == .space)) = true

theorem State.keyerSafe_iff (s : State) : s.keyerSafe ↔ s.keyer.Safe := Iff.rfl

theorem Keyer.reset_safe : Keyer.reset.Safe := by simp [Keyer.Safe, Keyer.reset]

/-- A character begins its start unit, which is keyed at space (R25). -/
theorem Keyer.begun_safe {h : Holder} (hh : h = .message ∨ h = .answer) (code : Code) (start since : Ticks)
    (next : Supply) : Keyer.Safe
      { holder := h
        current := some { code := code, start := start, unit := 0, next := next }
        spaceSince := some since } := by
  rcases hh with rfl | rfl <;> simp [Keyer.Safe, keyedLevel]

theorem Keyer.broken_safe (since : Ticks) :
    Keyer.Safe { holder := .breakKey, current := none, spaceSince := some since } := by
  simp [Keyer.Safe]

/-- A keyer with a character has MESSAGE or ANSWER as its holder. -/
theorem Keyer.Safe.holder_of_current {k : Keyer} (hk : k.Safe) {c : KeyedChar} (hc : k.current = some c) :
    k.holder = .message ∨ k.holder = .answer := by
  obtain ⟨hnone, hbreak, -, -⟩ := hk
  cases hh : k.holder with
  | none => exact absurd hc (by rw [(hnone hh).1]; nofun)
  | breakKey => exact absurd hc (by rw [(hbreak hh).1]; nofun)
  | message => exact .inl rfl
  | answer => exact .inr rfl

theorem Keyer.setUnit_safe {k : Keyer} (hk : k.Safe) {c : KeyedChar} (hc : k.current = some c) (unit : Nat)
    (t : Ticks) : (k.setUnit c unit t).Safe := by
  have hh := hk.holder_of_current hc
  refine ⟨fun h => ?_, fun h => ?_, fun _ => rfl, ?_⟩
  · rcases hh with hh | hh <;> exact absurd (hh.symm.trans h) (by decide)
  · rcases hh with hh | hh <;> exact absurd (hh.symm.trans h) (by decide)
  · cases hl : keyedLevel c.code unit <;> simp [Keyer.setUnit, hl]

/-- The stop element of the character being keyed, at mark (R25, R37). -/
theorem Keyer.stopElement_safe {k : Keyer} (hk : k.Safe) {c : KeyedChar} (hc : k.current = some c)
    (next : Supply) : Keyer.Safe
      { k with current := some { c with unit := 6, next := next }, spaceSince := none } := by
  rcases hk.holder_of_current hc with hh | hh <;> simp [Keyer.Safe, hh, keyedLevel]

/-- What the reports of the keyer's holder leave of the keyer. -/
theorem State.reports_keyer (s : State) (t : Ticks) :
    s.messageKeyed.keyer = s.keyer ∧ (s.messageMismatch t).keyer = s.keyer ∧
      s.interrupt.keyer = s.keyer ∧ s.answerOver.keyer = s.keyer :=
  ⟨(s.messageKeyed_runs (c := .logKey)).keyer rfl, (s.messageMismatch_runs (c := .logKey) t).keyer rfl,
    (s.interrupt_runs (c := .logKey)).keyer rfl, (s.answerOver_runs (c := .logKey)).keyer rfl⟩

theorem State.sequenceOver_keyer (s : State) : s.sequenceOver.keyer = Keyer.reset := by
  obtain ⟨hm, -, -, ha⟩ := State.reports_keyer { s with keyer := Keyer.reset } 0
  unfold State.sequenceOver
  dsimp only
  split
  · exact hm
  · exact ha
  · rfl

theorem State.mismatch_keyer (s : State) (t : Ticks) : (s.mismatch t).keyer = Keyer.reset := by
  obtain ⟨-, hm, -, ha⟩ := State.reports_keyer { s with keyer := Keyer.reset } t
  unfold State.mismatch
  dsimp only
  split
  · exact hm
  · exact ha
  · rfl

theorem State.spaceLimit_keyer (s : State) : s.spaceLimit.keyer = Keyer.reset := by
  obtain ⟨-, -, hm, ha⟩ := State.reports_keyer { s with keyer := Keyer.reset } 0
  unfold State.spaceLimit
  dsimp only
  split
  · exact hm
  · exact ha
  · rfl

theorem State.breakDown_keyer (s : State) : s.breakDown.keyer = s.keyer ∨
    ∃ since, s.breakDown.keyer = { holder := .breakKey, current := none, spaceSince := some since } := by
  unfold State.breakDown
  split
  · refine .inr ⟨s.keyer.spaceSince.getD s.now, ?_⟩
    dsimp only
    split
    · exact (State.reports_keyer _ 0).2.2.1
    · rfl
    · rfl
  · exact .inl rfl

theorem State.lineOpened_keyer (s : State) (t : Ticks) :
    (s.lineOpened t).keyer = s.keyer ∨ (s.lineOpened t).keyer = Keyer.reset := by
  unfold State.lineOpened
  dsimp only
  rw [State.settle_keyer]
  split
  · exact .inr rfl
  · refine .inl ((State.reports_keyer _ t).2.2.1.trans ?_)
    exact (State.listenerBreak_runs (c := .logKey) _ t).keyer rfl

theorem keys_of_otherDownKey {c : Instr} {k : Key} (hc : downKeyOf c = some k) (hk : k ≠ .brk) :
    keys c = false := by
  cases c with
  | keyDown => cases hc; simpa [keys, downKeyOf, upKeyOf] using hk
  | breakDown => cases hc; exact absurd rfl hk
  | clear | tapeFeedDown => rfl
  | _ => cases hc

theorem keys_of_otherUpKey {c : Instr} {k : Key} (hc : upKeyOf c = some k) (hk : k ≠ .brk) :
    keys c = false := by
  cases c with
  | keyUp => cases hc; simpa [keys, downKeyOf, upKeyOf] using hk
  | breakUp => cases hc; exact absurd rfl hk
  | tapeFeedUp => rfl
  | _ => cases hc

theorem keys_of_keyAction {c : Instr} {act : QueuedKey → State → State} (hc : keyActionOf c = some act) :
    keys c = false := by
  cases c with
  | dataKey | formatKey | callKey | endKey | cancelKey | enqKey | statusKey | hereIsKey | bellKey
  | logKey => rfl
  | _ => cases hc

/-- Every command but START and CONFIG_READ_END keeps the keyer's relations. -/
theorem Acts.keyer_safe {c : Instr} {s t : State} (h : Acts c s t) (hk : s.keyer.Safe) : t.keyer.Safe := by
  by_cases hkeys : keys c = false
  · rw [h.leaves.keyer hkeys]; exact hk
  cases h with
  | attemptBegin => exact Keyer.begun_safe (.inl rfl) _ _ _ _
  | startAnswer a =>
    unfold State.startAnswer
    split
    · exact Keyer.begun_safe (.inr rfl) _ _ _ _
    · exact hk
  | unitBoundary x u hx => exact Keyer.setUnit_safe hk hx _ _
  | supplyPoint x hx => exact Keyer.stopElement_safe hk hx _
  | stopElementEnd x u hx =>
    rw [State.settle_keyer]
    unfold State.stopElementOver
    split
    · exact Keyer.begun_safe (hk.holder_of_current hx) _ _ _ _
    · rw [State.sequenceOver_keyer]; exact Keyer.reset_safe
    · exact hk
  | echoMismatch x u => rw [State.settle_keyer, State.mismatch_keyer]; exact Keyer.reset_safe
  | breakLimit since => rw [State.settle_keyer, State.spaceLimit_keyer]; exact Keyer.reset_safe
  | lineOpen u =>
    rcases s.lineOpened_keyer u with h | h <;> rw [h]
    · exact hk
    · exact Keyer.reset_safe
  | keyDown k hc =>
    by_cases hb : k = .brk
    · subst hb
      have hdown : (s.keyGoesDown .brk).keyer = s.keyer :=
        (State.keyGoesDown_runs (c := .logKey) s .brk).keyer rfl
      rw [State.keyDownEvent, State.settle_keyer]
      rcases State.breakDown_keyer (s.keyGoesDown .brk) with h | ⟨since, h⟩
      · exact (h.trans hdown) ▸ hk
      · exact h ▸ Keyer.broken_safe since
    · exact absurd (keys_of_otherDownKey hc hb) hkeys
  | keyUp k hc =>
    by_cases hb : k = .brk
    · subst hb
      rw [State.keyUpEvent, State.settle_keyer]
      simp only [State.routeUp, State.breakUp]
      split
      · exact Keyer.reset_safe
      · exact hk
    · exact absurd (keys_of_otherUpKey hc hb) hkeys
  | mech m hm => exact hk
  | takeKey act k rest hc hq => exact absurd (keys_of_keyAction hc) hkeys
  | bellPulseEnd | punchPulseEnd | tapeSensor | shortRun | level | startCentre | dataReading | stopReading
  | quiet | breakEvent | slottedEnd | freeTimeout | mode | copierWrite | noticeWrite => exact absurd rfl hkeys

end Sys2Proof.Machine
end

section
/-! The motor, the printer and the punch at every command: their standing relations, and what leaves a FAULT. -/

namespace Sys2Proof.Machine

open Sys2Proof

/-! ### What every step keeps -/

/-- What START gives, and the end of the configuration read and every other command keep, every step keeps. -/
theorem step_keeps {P : State → Prop} (pending : ∀ s rest, P s → P { s with pending := rest })
    (clock : ∀ s u, P s → P (s.at u)) (start : ∀ s : State, P s.started)
    (readEnd : ∀ s bits pins u, s.working = false → bits.length = Config.imageClocks → P s →
      P (s.readEnd bits pins u))
    (acts : ∀ c s t, s.working = true → P s → Acts c s t → P t) {s t : State}
    (h : step s = .next t) (hs : P s) : P t := by
  unfold step at h
  split at h
  · cases h; exact hs
  · rename_i c rest _
    rcases exec_cases h with rfl | ⟨-, rfl⟩ | ⟨bits, pins, u, -, hw, hbits, rfl⟩ | ⟨hw, u, hact⟩
    · exact pending s rest hs
    · exact start _
    · exact readEnd (State.at { s with pending := rest } u) bits pins _ hw hbits (clock _ u (pending s rest hs))
    · exact acts c (State.at { s with pending := rest } u) t hw (clock _ u (pending s rest hs)) hact

/-! ### Relations of the motor -/

/-- The run-up timer runs exactly in STARTING, the idle timer only in RUNNING (R161, R163, R165). -/
def Motor.Safe (d : Motor) : Prop :=
  (d.runUp.isSome = true ↔ d.state = .starting) ∧ (d.idle.isSome = true → d.state = .running)

theorem State.motorSafe_iff (s : State) : s.motorSafe ↔ s.mech.motor.Safe := Iff.rfl

theorem Motor.Safe.startEvent {d : Motor} (h : d.Safe) (p : Params) (now : Ticks) :
    (d.startEvent p now).Safe := by
  obtain ⟨hrun, hidle⟩ := h
  rcases Motor.startEvent_cases p now d with e | ⟨hoff, e⟩ <;> rw [e]
  · exact ⟨hrun, hidle⟩
  · exact ⟨by simp, fun hi => absurd ((hidle hi).symm.trans hoff) (by decide)⟩

theorem Motor.Safe.restartIdle {d : Motor} (h : d.Safe) (p : Params) (now : Ticks) :
    (d.restartIdle p now).Safe := by
  obtain ⟨hrun, hidle⟩ := h
  unfold Motor.restartIdle
  split
  · exact ⟨hrun, fun _ => hidle ‹_›⟩
  · exact ⟨hrun, hidle⟩

theorem Motor.Safe.clearFault {d : Motor} (h : d.Safe) : d.clearFault.Safe := by
  unfold Motor.clearFault
  split
  · exact ⟨by simp, by simp⟩
  · exact h

/-- A motor at rest in `st`, both timers stopped. -/
theorem Motor.safe_of_stopped (d : Motor) {st : MotorState} (h : st ≠ .starting) :
    ({ d with state := st, runUp := none, idle := none } : Motor).Safe :=
  ⟨by simpa using h, by simp⟩

theorem Mech.watchIdle_motor_safe (p : Params) (now : Ticks) {m : Mech} (h : m.motor.Safe) :
    (m.watchIdle p now).motor.Safe := by
  refine ⟨h.1, fun hi => ?_⟩
  unfold Mech.watchIdle at hi
  dsimp only at hi
  split at hi
  · exact ‹_ ∧ _›.1
  · simp at hi

theorem Mech.motor_safe_kept (p : Params) (now : Ticks) : Mech.Kept p now (fun m => m.motor.Safe) where
  rest _ _ _ h := h
  move m n h hn := by rw [(Mech.printStep_keeps hn).2.1]; exact h
  take m n h hn := by rw [(Mech.punchStep_keeps hn).2.2.1]; exact h
  printStand m h := by rw [Mech.printStand_motor]; exact h
  ring _ h := h
  startEvent _ h := h.startEvent p now
  restartIdle _ h := h.restartIdle p now

theorem Mech.settle_motor_safe (p : Params) (now : Ticks) {m : Mech} (h : m.motor.Safe) :
    (m.settle p now).motor.Safe :=
  (Mech.motor_safe_kept p now).settle (Q := fun m => m.motor.Safe) (fun m h => by rw [Mech.punchStand_motor]; exact h)
    (fun _ h => h.startEvent p now) (fun _ h => Mech.watchIdle_motor_safe p now h) m
    (by rw [Mech.printStand_motor]; exact h)

theorem Mech.wheelEvent_motor (p : Params) (now : Ticks) (index : Bool) (m : Mech) :
    (m.wheelEvent p now index).motor = m.motor := (m.wheelEvent_inputs p now index).1

theorem MechAct.motor_safe {p : Params} {now : Ticks} {c : Instr} {m n : Mech} (h : MechAct p now m c n)
    (hm : m.motor.Safe) : n.motor.Safe := by
  cases h with
  | wheel => rw [Mech.wheelEvent_motor]; exact hm
  | punchSwitch => rw [Mech.rest_motor]; exact hm
  | runUp =>
    unfold Mech.runUpExpired Mech.motorReaches
    split
    · exact Motor.safe_of_stopped _ (by decide)
    · exact Motor.safe_of_stopped _ (by decide)
  | speedOk ok =>
    unfold Mech.speedChanged Mech.motorLeaves
    dsimp only
    split
    · exact Motor.safe_of_stopped { m.motor with speedOk := ok } (by decide)
    · exact hm
  | idleTimer => exact Motor.safe_of_stopped _ (by decide)
  | _ => exact hm

theorem Mech.Leaves.motor_safe {p : Params} {now : Ticks} {c : Instr} {m n : Mech}
    (h : Mech.Leaves p now c m n) (hm : m.motor.Safe) : n.motor.Safe := by
  cases h with
  | acted h => exact Mech.settle_motor_safe p now (h.motor_safe hm)
  | settled h =>
    refine Mech.settle_motor_safe p now ((Mech.motor_safe_kept p now).goes (fun m n hm ho => ?_) h hm)
    cases ho with
    | clear => exact hm.clearFault
    | feedDown | feedUp => exact hm
    | mode d => exact Motor.Safe.restartIdle (d := { m.motor with mode := d }) hm p now
  | queue | bell | magnets | tapeFlag => exact hm

/-- Settles O13: the keyer by the commands that touch it, the motor by the moves of the mechanism. -/
theorem keyerAndMotorStaySafe : Obligations.KeyerAndMotorStaySafe := by
  refine ⟨fun s t hs ht => ?keyer, fun s t hs ht => ?motor⟩
  case keyer =>
    exact step_keeps (P := State.keyerSafe) (fun _ _ h => h) (fun _ _ h => h) (fun _ => Keyer.reset_safe)
      (fun _ _ _ _ _ _ h => h) (fun _ _ _ _ h hact => hact.keyer_safe h) ht hs
  case motor =>
    refine step_keeps (P := State.motorSafe) (fun _ _ h => h) (fun _ _ h => h)
      (fun _ => Motor.safe_of_stopped Motor.reset (st := .off) (by decide)) (fun s bits pins u _ _ h => ?_)
      (fun _ _ _ _ h hact => hact.leaves.mech.motor_safe h) ht hs
    exact Mech.settle_motor_safe _ _ (m := { s.mech.readInputs pins with queue := _ }) h

end Sys2Proof.Machine
end

section
/-! The page printer and the tape punch at every command. -/

namespace Sys2Proof.Machine

open Sys2Proof

/-! ### Relations of the printer -/

/-- The wheel count is 0 to 48 and the mismatch count 0 to 3, an established column lies within the line, and a stop is
pending only in ACTIVE (R105, R110, R111, R116, R121). -/
structure Printer.Safe (p : Params) (r : Printer) : Prop where
  wheel : r.wheel ≤ Config.errorMark
  mismatches : r.mismatches ≤ 3
  column : r.columnWithin p
  stop : r.stop ≠ .none → r.state = .active

theorem State.printerSafe_iff (s : State) : s.printerSafe ↔
    s.mech.printer.Safe s.loader.params ∧
      (s.working = false → s.mech.printer.column = none ∧ s.mech.printer.stop = .none) :=
  ⟨fun ⟨hw, hm, hl, hc, hs, hr⟩ => ⟨⟨hw, hm, ⟨hl, hc⟩, hs⟩, hr⟩,
    fun ⟨⟨hw, hm, ⟨hl, hc⟩, hs⟩, hr⟩ => ⟨hw, hm, hl, hc, hs, hr⟩⟩

namespace Printer.Safe

variable {p : Params} {now : Ticks} {r : Printer}

theorem stop_eq_none (h : r.Safe p) (hst : r.state ≠ .active) : r.stop = .none := by
  by_contra hs
  exact hst (h.stop hs)

/-- A change of the state of a printer with no stop pending. -/
theorem of_no_stop (h : r.Safe p) (hs : r.stop = .none) (st : PrinterState) :
    ({ r with state := st } : Printer).Safe p :=
  ⟨h.wheel, h.mismatches, h.column, fun hn => absurd hs hn⟩

theorem withdraw (h : r.Safe p) : r.withdraw.Safe p := ⟨h.wheel, h.mismatches, h.column, h.stop⟩

theorem columnWithin_none (h : r.Safe p) {q : Printer} (hq : q.column = none) : q.columnWithin p :=
  Printer.columnWithin_iff.mpr ⟨h.column.1, by simp [hq]⟩

theorem columnWithin_one (h : r.Safe p) {q : Printer} (hq : q.column = some 1) : q.columnWithin p :=
  Printer.columnWithin_iff.mpr ⟨h.column.1, by
    rintro c hc
    cases hq.symm.trans hc
    exact ⟨Nat.le_refl 1, h.column.1⟩⟩

theorem enterFault (h : r.Safe p) : r.enterFault.Safe p :=
  ⟨h.wheel, h.mismatches, h.columnWithin_none rfl, fun hn => absurd rfl hn⟩

theorem steady {r' : Printer} (h : r.Safe p) (g : r.Steady p r') : r'.Safe p where
  wheel := g.wheel ▸ h.wheel
  mismatches := g.mismatches ▸ h.mismatches
  column := g.column h.column
  stop hn := g.state.trans (h.stop (g.stop ▸ hn))

theorem wheelEvent (h : r.Safe p) (index : Bool) : (r.wheelEvent index).Safe p := by
  have zero (n : Nat) (hn : n ≤ 3) (b : Bool) :
      ({ r with wheel := 0, synced := b, mismatches := n } : Printer).Safe p :=
    ⟨Nat.zero_le _, hn, h.column, h.stop⟩
  have hmis : min 3 (r.mismatches + 1) ≤ 3 := Nat.min_le_left _ _
  unfold Printer.wheelEvent
  split
  · refine ⟨?_, h.mismatches, h.column, h.stop⟩
    dsimp only [Config.errorMark]
    split <;> omega
  · split
    · exact zero r.mismatches h.mismatches true
    · split
      · exact zero 0 (by omega) r.synced
      · dsimp only
        split
        · exact (zero _ hmis r.synced).enterFault
        · exact zero _ hmis r.synced

theorem fire (h : r.Safe p) : (r.fire p now).Safe p := by
  refine ⟨h.wheel, h.mismatches, ?_, h.stop⟩
  by_cases hb : r.belowEnd p = true
  · have hstep := Printer.columnWithin_step h.column hb
    simp only [Printer.columnWithin, Printer.fire, hb, if_true] at hstep ⊢
    exact hstep
  · simp only [Printer.columnWithin, Printer.fire, hb]
    exact h.column

theorem contact (h : r.Safe p) : r.contact.Safe p := by
  unfold Printer.contact
  split
  · exact ⟨h.wheel, h.mismatches, h.columnWithin_one rfl, h.stop⟩
  · exact ⟨h.wheel, h.mismatches, h.column, h.stop⟩
  · exact ⟨h.wheel, h.mismatches, h.column, h.stop⟩

theorem returnExpired (h : r.Safe p) : r.returnExpired.Safe p := by
  have hfree : ({ r with carriage := .free } : Printer).Safe p := ⟨h.wheel, h.mismatches, h.column, h.stop⟩
  unfold Printer.returnExpired
  split
  · exact hfree.enterFault
  · exact hfree
  · exact h

theorem motorReached (h : r.Safe p) : r.motorReached.Safe p := by
  unfold Printer.motorReached
  split
  · exact h.of_no_stop (h.stop_eq_none (by simp [*])) _
  · split
    · exact ⟨h.wheel, h.mismatches, h.column, fun _ => ‹_›⟩
    · exact h
  · exact h

theorem paperBack (h : r.Safe p) (running : Bool) : (r.paperBack running).Safe p := by
  have hp : ({ r with paper := true } : Printer).Safe p := ⟨h.wheel, h.mismatches, h.column, h.stop⟩
  unfold Printer.paperBack
  dsimp only
  split
  · exact hp.of_no_stop (h.stop_eq_none (by simp [*])) _
  · exact ⟨h.wheel, h.mismatches, h.column, fun _ => ‹_›⟩
  · exact hp

theorem clearFault (h : r.Safe p) (running : Bool) : (r.clearFault running).Safe p := by
  unfold Printer.clearFault
  split
  · exact ⟨h.wheel, Nat.zero_le _, h.column,
      fun hn => absurd (h.stop_eq_none (by simp [*])) hn⟩
  · exact h

end Printer.Safe

/-- The printer's relations before it stands: a stop may be pending outside ACTIVE where no part is in motion, and then
takes effect as the printer stands (R105, R121). -/
structure Printer.Near (p : Params) (r : Printer) : Prop where
  wheel : r.wheel ≤ Config.errorMark
  mismatches : r.mismatches ≤ 3
  column : r.columnWithin p
  stop : r.stop ≠ .none → r.state = .active ∨ r.busy = false

namespace Printer

variable {p : Params} {now : Ticks} {r : Printer}

theorem Safe.near (h : r.Safe p) : r.Near p := ⟨h.wheel, h.mismatches, h.column, fun hn => .inl (h.stop hn)⟩

theorem Safe.motorLeft (h : r.Safe p) : r.motorLeft.Near p := by
  unfold Printer.motorLeft
  split
  · exact (h.of_no_stop (h.stop_eq_none (by simp [*])) _).near
  · split
    · exact ⟨h.wheel, h.mismatches, h.column, fun _ => .inl ‹_›⟩
    · rename_i hb
      exact ⟨h.wheel, h.mismatches, h.column, fun _ => .inr (Bool.eq_false_iff.mpr hb)⟩
  · exact h.near

theorem Safe.paperGone (h : r.Safe p) : r.paperGone.Near p := by
  have hp : ({ r with paper := false } : Printer).Safe p := ⟨h.wheel, h.mismatches, h.column, h.stop⟩
  unfold Printer.paperGone
  dsimp only
  split
  · exact (hp.of_no_stop (h.stop_eq_none (by simp [*])) _).near
  · exact (hp.of_no_stop (h.stop_eq_none (by simp [*])) _).near
  · split
    · exact ⟨h.wheel, h.mismatches, h.column, fun _ => .inl ‹_›⟩
    · rename_i hb
      exact ⟨h.wheel, h.mismatches, h.column, fun _ => .inr (Bool.eq_false_iff.mpr hb)⟩
  · exact hp.near

end Printer

/-- Standing lets a stop that is pending at rest take effect. -/
theorem Mech.printStand_safe {p : Params} {m : Mech} (h : m.printer.Near p) :
    m.printStand.printer.Safe p := by
  have stopped (st : PrinterState) : ({ m.printer with state := st, stop := .none } : Printer).Safe p :=
    ⟨h.wheel, h.mismatches, h.column, fun hn => absurd rfl hn⟩
  unfold Mech.printStand
  dsimp only
  split
  · rename_i hs
    split
    · exact ⟨h.wheel, h.mismatches, h.column, fun hn => absurd hs hn⟩
    · exact ⟨h.wheel, h.mismatches, h.column, fun hn => absurd hs hn⟩
  · rename_i hs
    split
    · rename_i hb
      exact ⟨h.wheel, h.mismatches, h.column, fun hn => (h.stop hn).resolve_right (by simp [hb])⟩
    · exact stopped _
  · rename_i hs
    split
    · rename_i hb
      exact ⟨h.wheel, h.mismatches, h.column, fun hn => (h.stop hn).resolve_right (by simp [hb])⟩
    · exact stopped _

theorem Mech.printer_safe_kept (p : Params) (now : Ticks) :
    Mech.Kept p now (fun m => m.printer.Safe p) where
  rest _ _ _ h := h
  move m n h hn := h.steady (Mech.printStep_keeps hn).1
  take m n h hn := by rw [(Mech.punchStep_keeps hn).2.1]; exact h
  printStand m h := Mech.printStand_safe h.near
  ring _ h := ⟨h.wheel, h.mismatches, h.column, h.stop⟩
  startEvent _ h := h
  restartIdle _ h := h

theorem Mech.settle_printer_safe {p : Params} {now : Ticks} {m : Mech} (h : m.printer.Near p) :
    (m.settle p now).printer.Safe p :=
  (Mech.printer_safe_kept p now).settle (Q := fun m => m.printer.Safe p)
    (fun m h => by rw [Mech.punchStand_printer]; exact h) (fun _ h => h) (fun _ h => h) m
    (Mech.printStand_safe h)

theorem Mech.wheelEvent_printer (p : Params) (now : Ticks) (index : Bool) (m : Mech) :
    (m.wheelEvent p now index).printer = m.printer.wheelEvent index ∨
      (m.wheelEvent p now index).printer = (m.printer.wheelEvent index).fire p now := by
  unfold Mech.wheelEvent
  dsimp only
  split
  · exact .inr (by rw [Mech.printTake_printer])
  · exact .inl rfl

theorem MechAct.printer_near {p : Params} {now : Ticks} {c : Instr} {m n : Mech} (h : MechAct p now m c n)
    (hm : m.printer.Safe p) : n.printer.Near p := by
  cases h with
  | wheel index =>
    rcases m.wheelEvent_printer p now index with h | h <;> rw [h]
    · exact (hm.wheelEvent index).near
    · exact (hm.wheelEvent index).fire.near
  | hammerPulse | hammerRecovery | carriageStep | lineTime =>
    exact ⟨hm.wheel, hm.mismatches, hm.column, fun hn => .inl (hm.stop hn)⟩
  | marginContact => exact hm.contact.near
  | returnTimeout => exact hm.returnExpired.near
  | paperOut => exact hm.paperGone
  | paperIn => exact (hm.paperBack _).near
  | punchSwitch => rw [Mech.rest_printer]; exact hm.near
  | punchDone | punchTimeout | tapeLow | tapeGone | tapeReplaced => exact hm.near
  | runUp =>
    unfold Mech.runUpExpired
    split
    · exact hm.motorReached.near
    · exact hm.near
  | speedOk ok =>
    unfold Mech.speedChanged
    dsimp only
    split
    · exact hm.motorLeft
    · exact hm.near
  | idleTimer => exact hm.motorLeft

theorem Mech.Leaves.printer_safe {p : Params} {now : Ticks} {c : Instr} {m n : Mech}
    (h : Mech.Leaves p now c m n) (hm : m.printer.Safe p) : n.printer.Safe p := by
  cases h with
  | acted h => exact Mech.settle_printer_safe (h.printer_near hm)
  | settled h =>
    refine Mech.settle_printer_safe ((Mech.printer_safe_kept p now).goes (fun m n hm ho => ?_) h hm).near
    cases ho with
    | clear => exact hm.clearFault _
    | feedDown | feedUp | mode => exact hm
  | bell => exact ⟨hm.wheel, hm.mismatches, hm.column, hm.stop⟩
  | queue | magnets | tapeFlag => exact hm

end Sys2Proof.Machine
end

section
/-! The configuration read: bytes of bits, the judgement of the image, and the parameters of a clamped one. -/

namespace Sys2Proof.Machine

open Sys2Proof

/-! ### Bytes (R181) -/

/-- Byte `i` of a run of bits, highest place first. -/
def byteOf (bits : List Bool) (i : Nat) : Nat :=
  bitsValue [bits.getD (8 * i) false, bits.getD (8 * i + 1) false, bits.getD (8 * i + 2) false,
    bits.getD (8 * i + 3) false, bits.getD (8 * i + 4) false, bits.getD (8 * i + 5) false,
    bits.getD (8 * i + 6) false, bits.getD (8 * i + 7) false]

theorem byteOf_eq (bits : List Bool) (i : Nat) :
    byteOf bits i =
      128 * (if bits.getD (8 * i) false = true then 1 else 0) +
      64 * (if bits.getD (8 * i + 1) false = true then 1 else 0) +
      32 * (if bits.getD (8 * i + 2) false = true then 1 else 0) +
      16 * (if bits.getD (8 * i + 3) false = true then 1 else 0) +
      8 * (if bits.getD (8 * i + 4) false = true then 1 else 0) +
      4 * (if bits.getD (8 * i + 5) false = true then 1 else 0) +
      2 * (if bits.getD (8 * i + 6) false = true then 1 else 0) +
      (if bits.getD (8 * i + 7) false = true then 1 else 0) := by
  simp only [byteOf, bitsValue, List.foldl_cons, List.foldl_nil]
  omega

/-- Eight clocks from the boundary of a byte make one more byte. -/
theorem Loader.takeBit_eight (l : Loader) (h : l.taken = []) (b0 b1 b2 b3 b4 b5 b6 b7 : Bool) :
    [b0, b1, b2, b3, b4, b5, b6, b7].foldl Loader.takeBit l =
      { l with
        image := l.image ++ [bitsValue [b0, b1, b2, b3, b4, b5, b6, b7]]
        count := l.count + 1
        clocks := l.clocks + 8
        taken := [] } := by
  simp [Loader.takeBit, h]

/-- A whole number of bytes is taken byte by byte. -/
theorem Loader.foldl_takeBit (n : Nat) (l : Loader) (bits : List Bool) (h : l.taken = [])
    (hn : bits.length = 8 * n) :
    bits.foldl Loader.takeBit l =
      { l with
        image := l.image ++ (List.range n).map (byteOf bits)
        count := l.count + n
        clocks := l.clocks + 8 * n
        taken := [] } := by
  induction n generalizing l bits with
  | zero =>
    obtain rfl := List.length_eq_zero_iff.mp hn
    cases l
    simp_all
  | succ n ih =>
    match bits, hn with
    | b0 :: b1 :: b2 :: b3 :: b4 :: b5 :: b6 :: b7 :: rest, hn =>
      have hrest : rest.length = 8 * n := by simp only [List.length_cons] at hn; omega
      have hbyte (i : Nat) :
          byteOf (b0 :: b1 :: b2 :: b3 :: b4 :: b5 :: b6 :: b7 :: rest) (i + 1) = byteOf rest i := by
        simp [byteOf, Nat.mul_add]
      have hsplit : b0 :: b1 :: b2 :: b3 :: b4 :: b5 :: b6 :: b7 :: rest =
          [b0, b1, b2, b3, b4, b5, b6, b7] ++ rest := rfl
      rw [hsplit, List.foldl_append, Loader.takeBit_eight l h, ih _ _ rfl hrest, ← hsplit]
      simp only [List.range_succ_eq_map, List.map_cons, List.map_map, Function.comp_def, hbyte,
        List.append_assoc, List.singleton_append]
      have hhead : bitsValue [b0, b1, b2, b3, b4, b5, b6, b7] =
          byteOf (b0 :: b1 :: b2 :: b3 :: b4 :: b5 :: b6 :: b7 :: rest) 0 := rfl
      rw [hhead, Nat.mul_add_one, Nat.add_assoc l.count, Nat.add_comm 1 n, Nat.add_assoc l.clocks,
        Nat.add_comm 8]

/-- The read takes 48 bytes (R181). -/
theorem Loader.read_eq (l : Loader) (bits : List Bool) (h : bits.length = Config.imageClocks) :
    l.read bits = { l with
      image := (List.range 48).map (byteOf bits), count := 48, clocks := 384, taken := [] } := by
  rw [Loader.read, Loader.foldl_takeBit 48 _ bits rfl (by simpa [Config.imageClocks] using h)]
  simp

/-! ### The image (R182 to R184) -/

theorem imageByte_map_range {f : Nat → Nat} {n i : Nat} (h : i < n) :
    imageByte ((List.range n).map f) i = f i := by
  simp [imageByte, List.getD_eq_getElem?_getD, h]

/-- A byte of the clamped image is the byte clamped in its place. -/
theorem imageByte_clampImage {f : Nat → Nat} {n i : Nat} (h : i < n) :
    imageByte (clampImage ((List.range n).map f)) i = clampByte i (f i) := by
  simp [imageByte, clampImage, List.getD_eq_getElem?_getD, h]

theorem clampByte_of_ne_five {i : Nat} (h : i ≠ 5) (b : Nat) :
    clampByte i b = max (byteRange i).1 (min (byteRange i).2 b) := if_neg h

theorem clampByte_five (b : Nat) : clampByte 5 b = 16 * min 2 (b / 16) + min 5 (b % 16) := rfl

theorem Loader.judge_working (l : Loader) : l.judge.standing ≠ .reading := by
  unfold Loader.judge
  split
  · dsimp only
    split <;> exact nofun
  · exact nofun

/-- The line length handed over is at least 1 (R182). -/
theorem Loader.readEnd_lineLength (l : Loader) {bits : List Bool} (h : bits.length = Config.imageClocks) :
    1 ≤ (l.readEnd bits).params.lineLength := by
  rw [Loader.readEnd, Loader.read_eq l bits h]
  unfold Loader.judge
  split
  · simp only [imageParams, imageByte_clampImage (show 11 < 48 by decide),
      clampByte_of_ne_five (show 11 ≠ 5 by decide), byteRange]
    omega
  · exact (by decide : 1 ≤ Params.default.lineLength)

theorem State.readEnd_loader (s : State) (bits : List Bool) (pins : Inputs) (u : Ticks) :
    (s.readEnd bits pins u).loader = s.loader.readEnd bits := rfl

theorem State.readEnd_working (s : State) (bits : List Bool) (pins : Inputs) (u : Ticks) :
    (s.readEnd bits pins u).working = true := by
  simpa [State.working, State.readEnd_loader, Loader.readEnd] using Loader.judge_working (s.loader.read bits)

/-- The mechanism at the end of the read: its inputs read, the start notice requested, settled. -/
theorem State.readEnd_mech (s : State) (bits : List Bool) (pins : Inputs) (u : Ticks) :
    (s.readEnd bits pins u).mech =
      ({ s.mech.readInputs pins with
        queue := s.mech.queue.post (.start (s.loader.readEnd bits).standing.digit) } : Mech).settle
        (s.loader.readEnd bits).params s.now := by
  simp only [State.readEnd, State.settle_mech, State.post_mech]
  rfl

/-- Settles O14: the printer by the moves of the mechanism, the line length by the clamping of its byte. -/
theorem printerStaysSafe : Obligations.PrinterStaysSafe := by
  intro s t hs ht
  refine step_keeps (P := State.printerSafe) (fun _ _ h => h) (fun _ _ h => h) (fun s => ?start)
    (fun s bits pins u hw hbits h => ?read) (fun c s t hw h hact => ?acts) ht hs
  case start =>
    exact (State.printerSafe_iff _).mpr
      ⟨(⟨by decide, by decide, Printer.columnWithin_iff.mpr ⟨by decide, nofun⟩, by decide⟩ : Printer.reset.Safe Params.default), fun _ => ⟨rfl, rfl⟩⟩
  case read =>
    obtain ⟨hr, hread⟩ := (State.printerSafe_iff s).mp h
    obtain ⟨hcol, hstop⟩ := hread hw
    refine (State.printerSafe_iff _).mpr ⟨?_, fun hn => absurd (s.readEnd_working bits pins u) (by simp [hn])⟩
    rw [State.readEnd_mech, State.readEnd_loader]
    refine Mech.settle_printer_safe (Printer.Safe.near ⟨hr.wheel, hr.mismatches, ?_, fun hn => absurd hstop hn⟩)
    exact Printer.columnWithin_iff.mpr ⟨s.loader.readEnd_lineLength hbits, fun c hc => absurd hc (by
      simp [Mech.readInputs, hcol])⟩
  case acts =>
    obtain ⟨hr, -⟩ := (State.printerSafe_iff s).mp h
    have hl := hact.leaves.loader
    refine (State.printerSafe_iff _).mpr ⟨?_, fun hn => absurd hw (by simp [State.working, ← hl] at hn ⊢; exact hn)⟩
    rw [hl]
    exact hact.leaves.mech.printer_safe hr

/-- Settles O20, each row of the table by its own range. -/
theorem clampingFollowsTheTable : Obligations.ClampingFollowsTheTable := by
  have row (i low high b : Nat) (hi : i ≠ 5) (hr : byteRange i = (low, high)) (hle : low ≤ high) :
      (b < low → clampByte i b = low) ∧ (high < b → clampByte i b = high) ∧
        (low ≤ b → b ≤ high → clampByte i b = b) := by
    rw [clampByte_of_ne_five hi, hr]
    dsimp only
    omega
  refine ⟨fun b r hr => ?rows, fun b i hlow hhigh => ?answerBack, fun b => ?line, fun b hb i hi => ?plain,
    fun image => ⟨?length, fun i b hb => ?each⟩⟩
  case rows =>
    have hrow : r.1 ≠ 5 ∧ byteRange r.1 = (r.2.1, r.2.2) ∧ r.2.1 ≤ r.2.2 := by
      revert r
      decide
    exact row r.1 r.2.1 r.2.2 b hrow.1 hrow.2.1 hrow.2.2
  case answerBack =>
    have hrange : byteRange i = (0, 31) := by
      obtain ⟨k, rfl⟩ := Nat.exists_eq_add_of_le hlow
      have hk : k < 20 := by omega
      clear hlow hhigh
      revert k
      decide
    rw [clampByte_of_ne_five (by omega), hrange]
    dsimp only
    omega
  case line =>
    rw [clampByte_five]
    omega
  case plain =>
    have hrange : i ≠ 5 ∧ byteRange i = (0, 255) := by
      revert i
      decide
    rw [clampByte_of_ne_five hrange.1, hrange.2]
    dsimp only
    omega
  case length => simp [clampImage]
  case each => simp [clampImage, hb]

end Sys2Proof.Machine
end

section
/-! The check over a message (R6 to R9): a covered character weighs 32 or 1, by its place in its pair. -/

namespace Sys2Proof.Machine

open Sys2Proof

/-- The sum of the symbols of a sequence; `second` says that its first character completes a pair. -/
def symbolSum : List Code → Bool → Nat
  | [], _ => 0
  | c :: cs, false => 32 * c.val + symbolSum cs true
  | c :: cs, true => c.val + symbolSum cs false

/-- What a held first character weighs. -/
def heldWeight (temp : Option Code) : Nat := temp.elim 0 fun a => 32 * a.val

theorem heldWeight_le (temp : Option Code) : heldWeight temp ≤ 992 := by
  cases temp with
  | none => exact Nat.zero_le _
  | some a => simp only [heldWeight, Option.elim]; omega

/-- The accumulator over a sequence goes, in range and residue, through the sum of the symbols alone. -/
theorem checkOf_spec (cs : List Code) (acc : Nat) (temp : Option Code) (ha : acc ≤ 1023) :
    checkOf cs (acc, temp) ≤ 1023 ∧
      checkOf cs (acc, temp) % 1023 = (acc + heldWeight temp + symbolSum cs temp.isSome) % 1023 := by
  induction cs generalizing acc temp with
  | nil =>
    cases temp with
    | none => simpa [checkOf, padCheck, symbolSum, heldWeight] using ha
    | some a =>
      obtain ⟨hle, hmod, -⟩ := addSymbol_spec acc (32 * a.val) ha (by omega)
      exact ⟨hle, by simpa [checkOf, padCheck, symbolSum, heldWeight] using hmod⟩
  | cons c cs ih =>
    cases temp with
    | none =>
      obtain ⟨hle, hmod⟩ := ih acc (some c) ha
      exact ⟨hle, by simpa [checkOf, feedCheck, symbolSum, heldWeight, Nat.add_assoc] using hmod⟩
    | some a =>
      obtain ⟨hle, hmod, -⟩ := addSymbol_spec acc (32 * a.val + c.val) ha (by omega)
      obtain ⟨ihle, ihmod⟩ := ih _ none hle
      refine ⟨ihle, ?_⟩
      simp only [checkOf, feedCheck, symbolSum, heldWeight, Option.elim, Option.isSome] at ihmod ⊢
      omega

/-- One place of a sequence adds the character standing there, once or 32 times, to what the others make. -/
theorem symbolSum_place (before after : List Code) (second : Bool) :
    ∃ w k, (w = 1 ∨ w = 32) ∧ ∀ c, symbolSum (before ++ c :: after) second = w * c.val + k := by
  induction before generalizing second with
  | nil => cases second with
    | false => exact ⟨32, _, .inr rfl, fun c => rfl⟩
    | true => exact ⟨1, _, .inl rfl, fun c => by simp [symbolSum]; rfl⟩
  | cons b before ih =>
    obtain ⟨w, k, hw, h⟩ := ih (!second)
    cases second with
    | false => exact ⟨w, 32 * b.val + k, hw, fun c => by
        have := h c
        simp only [List.cons_append, symbolSum, Bool.not_false] at this ⊢
        omega⟩
    | true => exact ⟨w, b.val + k, hw, fun c => by
        have := h c
        simp only [List.cons_append, symbolSum, Bool.not_true] at this ⊢
        omega⟩

/-- Settles O22: the two sums differ by 1 or 32 times a difference below 32, so never by a multiple of 1023. -/
theorem checkFindsEveryChangedCharacter : Obligations.CheckFindsEveryChangedCharacter := by
  intro before after c d
  obtain ⟨w, k, hw, hsum⟩ := symbolSum_place before after false
  obtain ⟨sle, smod⟩ := checkOf_spec (before ++ c :: after) 0 none (Nat.zero_le _)
  obtain ⟨hle, hmod⟩ := checkOf_spec (before ++ d :: after) 0 none (Nat.zero_le _)
  simp only [heldWeight, Option.elim, Option.isSome, hsum, Nat.zero_add] at smod hmod
  generalize checkOf (before ++ c :: after) (0, none) = sent at *
  generalize checkOf (before ++ d :: after) (0, none) = heard at *
  have hcheck : 32 * ((1023 - sent) / 32) + (1023 - sent) % 32 = 1023 - sent := Nat.div_add_mod ..
  dsimp only
  rw [hcheck]
  refine ⟨by rw [addSymbol_of_le (by omega)]; omega, fun hne hfull => hne (Fin.ext ?_)⟩
  have hsame : heard % 1023 = sent % 1023 := by
    obtain ⟨-, hm, -⟩ := addSymbol_spec heard (1023 - sent) hle (by omega)
    omega
  rcases hw with rfl | rfl <;> omega

end Sys2Proof.Machine
end

section
/-! Steps, the configuration read under way, and the start. -/

namespace Sys2Proof.Machine

open Sys2Proof

/-- Settles O1, by the two branches of `step`. -/
theorem stepRunsTheFrontCommand : Obligations.StepRunsTheFrontCommand :=
  ⟨fun c rest s h => by simp only [step, h], fun s h => by simp only [step, h]⟩

/-- Settles O3: with the blocks not working, `exec_cases` leaves START and CONFIG_READ_END alone to act. -/
theorem nothingArisesDuringTheRead : Obligations.NothingArisesDuringTheRead := by
  intro c s hw hstart hread
  obtain ⟨t, ht⟩ := exec_answers c s
  rcases exec_cases ht with hs | ⟨rfl, -⟩ | ⟨bits, pins, u, rfl, -⟩ | ⟨hwork, -⟩
  · rwa [hs] at ht
  · exact absurd rfl hstart
  · exact absurd rfl (hread bits pins u)
  · simp [hw] at hwork

/-- Settles O9: the reset state by evaluation, and START is the reset state but for clock and queue of commands. -/
theorem startIsSafe : Obligations.StartIsSafe := by
  have hqueue : State.reset.queueSafe := by decide +kernel
  have hreset : State.reset.safe := by
    refine ⟨hqueue, ?_, ?_, ?_, ?_, ?_, ?_, ?_, ?_⟩ <;> decide +kernel
  exact ⟨hreset, fun s => ⟨s.started, rfl, hreset⟩⟩

/-- Settles O18, block by block. -/
theorem startGivesTheStartValues : Obligations.StartGivesTheStartValues := by
  intro s
  have hpeers : ∀ o : Code, State.reset.matcher.peer o = none := by decide
  have hkeys : ∀ k : Key, State.reset.keyboard.isDown k = false := fun k => by
    simp [State.reset, Keyboard.isDown, Keyboard.reset]
  have hlamps : State.reset.lamps = ⟨true, false, false, false, false, false, false, false⟩ := by decide
  refine ⟨s.started, rfl, rfl, rfl, ⟨rfl, rfl, rfl, rfl, rfl, rfl, rfl⟩, ⟨rfl, rfl, rfl, rfl, rfl, rfl⟩,
    ⟨rfl, rfl, rfl, rfl, rfl, rfl, rfl, rfl, rfl, rfl, rfl⟩, ⟨rfl, rfl, rfl, hpeers, rfl⟩, rfl, ⟨rfl, rfl, rfl, rfl⟩,
    ⟨rfl, rfl, rfl, rfl, rfl, rfl, rfl, rfl, rfl, rfl⟩,
    ⟨rfl, rfl, rfl, rfl, rfl, rfl, rfl, rfl, rfl, rfl, rfl, rfl, rfl, rfl⟩, ⟨rfl, rfl, rfl, rfl, rfl⟩,
    ⟨rfl, rfl, rfl⟩, ⟨hkeys, rfl, rfl, rfl, rfl, rfl, rfl⟩, ⟨rfl, rfl⟩, hlamps⟩

end Sys2Proof.Machine
end

section
/-! Parts at rest and in FAULT: what the readers and an event leave of them, and what the read's end sets. -/

namespace Sys2Proof.Machine

open Sys2Proof

variable {p : Params} {now : Ticks} {c : Instr} {m n : Mech}

/-! ### A part that stands keeps its state through settling -/

/-- The printer is at `st` with no stop pending. -/
def Mech.printerAt (st : PrinterState) (m : Mech) : Prop := m.printer.state = st ∧ m.printer.stop = .none

theorem Mech.printStand_eq_self {st : PrinterState} (hst : st ≠ .idle ∧ st ≠ .active) (h : m.printerAt st) :
    m.printStand = m := by
  have hp : m.printing = false := by simp [Mech.printing, h.1, hst]
  simp [Mech.printStand, h.2, hp]

/-- A printer that neither works nor can is left where it is. -/
theorem Mech.printerAt_kept (p : Params) (now : Ticks) {st : PrinterState} (hst : st ≠ .idle ∧ st ≠ .active) :
    Mech.Kept p now (Mech.printerAt st) where
  rest _ _ _ h := h
  move m n h hn := by
    obtain ⟨hs, -⟩ := Mech.printStep_keeps hn
    exact ⟨hs.state.trans h.1, hs.stop.trans h.2⟩
  take m n h hn := by rw [Mech.printerAt, (Mech.punchStep_keeps hn).2.1]; exact h
  printStand m h := by rwa [Mech.printStand_eq_self hst h]
  ring _ h := h
  startEvent _ h := h
  restartIdle _ h := h

theorem Mech.settle_printerAt {st : PrinterState} (hst : st ≠ .idle ∧ st ≠ .active) (h : m.printerAt st) :
    (m.settle p now).printerAt st :=
  (Mech.printerAt_kept p now hst).settle (Q := Mech.printerAt st)
    (fun m h => by rw [Mech.printerAt, Mech.punchStand_printer]; exact h) (fun _ h => h) (fun _ h => h) m
    (by rwa [Mech.printStand_eq_self hst h])

/-- A punch that stands at TAPE-OUT or FAULT is left where it is. -/
theorem Mech.punchState_kept (p : Params) (now : Ticks) {st : PunchState} (hst : st = .tapeOut ∨ st = .fault) :
    Mech.Kept p now (fun m => m.punch.state = st) where
  rest _ _ _ h := h
  move m n h hn := by
    obtain ⟨b, hb⟩ := (Mech.printStep_keeps hn).2.2
    rw [hb]; exact h
  take m n h hn := by
    have hp := (Mech.punchStep_keeps hn).1
    rcases hst with rfl | rfl <;> simp [Mech.punching, h] at hp
  printStand m h := by rw [Mech.printStand_punch]; exact h
  ring _ h := h
  startEvent _ h := h
  restartIdle _ h := h

theorem Mech.settle_punchState {st : PunchState} (hst : st = .tapeOut ∨ st = .fault) (h : m.punch.state = st) :
    (m.settle p now).punch.state = st :=
  (Mech.punchState_kept p now hst).settle (Q := fun m => m.punch.state = st)
    (fun m h => by
      have hm : m.punchStand = m := by rcases hst with rfl | rfl <;> simp [Mech.punchStand, h]
      rw [hm]; exact h)
    (fun _ h => h) (fun _ h => h) m (by rwa [Mech.printStand_punch])

/-! ### A FAULT stays at every event but CLEAR's (R123, R131, R166) -/

theorem MechAct.printer_fault (h : MechAct p now m c n) (hm : m.printerAt .fault) : n.printerAt .fault := by
  obtain ⟨hstate, hstop⟩ := hm
  cases h with
  | wheel index =>
    have hev : (m.printer.wheelEvent index).state = .fault ∧ (m.printer.wheelEvent index).stop = .none := by
      unfold Printer.wheelEvent
      split
      · exact ⟨hstate, hstop⟩
      · split
        · exact ⟨hstate, hstop⟩
        · split
          · exact ⟨hstate, hstop⟩
          · dsimp only
            split
            · exact ⟨rfl, rfl⟩
            · exact ⟨hstate, hstop⟩
    rcases m.wheelEvent_printer p now index with h | h <;> exact ⟨by rw [h]; exact hev.1, by rw [h]; exact hev.2⟩
  | hammerPulse | hammerRecovery | carriageStep | lineTime | punchDone | punchTimeout | tapeLow | tapeGone
  | tapeReplaced => exact ⟨hstate, hstop⟩
  | marginContact =>
    unfold Mech.printerAt Printer.contact
    split <;> exact ⟨hstate, hstop⟩
  | returnTimeout =>
    unfold Mech.printerAt Printer.returnExpired
    split
    · exact ⟨rfl, rfl⟩
    · exact ⟨hstate, hstop⟩
    · exact ⟨hstate, hstop⟩
  | paperOut => simp [Mech.printerAt, Printer.paperGone, hstate, hstop]
  | paperIn => simp [Mech.printerAt, Printer.paperBack, hstate, hstop]
  | punchSwitch => rw [Mech.printerAt, Mech.rest_printer]; exact ⟨hstate, hstop⟩
  | runUp =>
    unfold Mech.runUpExpired
    split
    · simp [Mech.printerAt, Mech.motorReaches, Printer.motorReached, hstate, hstop]
    · exact ⟨hstate, hstop⟩
  | speedOk ok =>
    unfold Mech.speedChanged
    dsimp only
    split
    · simp [Mech.printerAt, Mech.motorLeaves, Printer.motorLeft, hstate, hstop]
    · exact ⟨hstate, hstop⟩
  | idleTimer => simp [Mech.printerAt, Mech.motorLeaves, Printer.motorLeft, hstate, hstop]

theorem Mech.wheelEvent_punch (p : Params) (now : Ticks) (index : Bool) (m : Mech) :
    ∃ b, (m.wheelEvent p now index).punch = { m.punch with inRun := b } := by
  unfold Mech.wheelEvent
  dsimp only
  split
  · rw [Mech.printTake]
    exact Mech.rest_punch _
  · exact ⟨m.punch.inRun, rfl⟩

theorem MechAct.punch_fault (h : MechAct p now m c n) (hm : m.punch.state = .fault) : n.punch.state = .fault := by
  cases h with
  | wheel index =>
    obtain ⟨b, hb⟩ := m.wheelEvent_punch p now index
    rw [hb]; exact hm
  | hammerPulse | hammerRecovery | carriageStep | lineTime | marginContact | returnTimeout | paperOut | paperIn =>
    exact hm
  | punchSwitch a b t =>
    obtain ⟨x, hx⟩ := Mech.rest_punch { m with punch := m.punch.setSwitch (switchPosition a b) }
    rw [hx]; exact hm
  | punchDone => simp [Punch.complete, hm]
  | punchTimeout => rfl
  | tapeLow => simp [Punch.lowTape, hm]
  | tapeGone => simp [Punch.goneTape, hm]
  | tapeReplaced => simp [Punch.newTape, hm]
  | runUp =>
    unfold Mech.runUpExpired
    split
    · simp [Mech.motorReaches, Punch.motorReached, hm]
    · exact hm
  | speedOk ok =>
    unfold Mech.speedChanged
    dsimp only
    split
    · simp [Mech.motorLeaves, Punch.motorLeft, hm]
    · exact hm
  | idleTimer => simp [Mech.motorLeaves, Punch.motorLeft, hm]

theorem MechAct.motor_fault (h : MechAct p now m c n) (hs : m.motor.Safe) (hm : m.motor.state = .fault) :
    n.motor.state = .fault := by
  cases h with
  | wheel index =>
    rw [Mech.wheelEvent_motor]; exact hm
  | hammerPulse | hammerRecovery | carriageStep | lineTime | marginContact | returnTimeout | paperOut | paperIn
  | punchDone | punchTimeout | tapeLow | tapeGone | tapeReplaced => exact hm
  | punchSwitch => rw [Mech.rest_motor]; exact hm
  | runUp u hu => exact absurd (hs.1.mp (by simp [hu])) (by simp [hm])
  | speedOk ok =>
    unfold Mech.speedChanged
    dsimp only
    split
    · rfl
    · exact hm
  | idleTimer u hu => exact absurd (hs.2 (by simp [hu])) (by simp [hm])

theorem Motor.restartIdle_state (p : Params) (now : Ticks) (d : Motor) : (d.restartIdle p now).state = d.state := by
  unfold Motor.restartIdle
  split <;> rfl

/-- A motor in FAULT is left where it is. -/
theorem Mech.motorFault_kept (p : Params) (now : Ticks) : Mech.Kept p now (fun m => m.motor.state = .fault) where
  rest _ _ _ h := h
  move m n h hn := by rw [(Mech.printStep_keeps hn).2.1]; exact h
  take m n h hn := by rw [(Mech.punchStep_keeps hn).2.2.1]; exact h
  printStand m h := by rw [Mech.printStand_motor]; exact h
  ring _ h := h
  startEvent m h := by simp [Motor.startEvent, h]
  restartIdle m h := (Motor.restartIdle_state ..).trans h

theorem Mech.settle_motor_fault (hm : m.motor.state = .fault) : (m.settle p now).motor.state = .fault :=
  (Mech.motorFault_kept p now).settle (Q := fun m => m.motor.state = .fault)
    (fun m h => by rw [Mech.punchStand_motor]; exact h) (fun m h => by simp [Motor.startEvent, h])
    (fun _ h => h) m (by rwa [Mech.printStand_motor])

/-- What a command that is not CLEAR leaves of a part in FAULT is in FAULT. -/
theorem Mech.Leaves.fault {P : Mech → Prop} (h : Mech.Leaves p now c m n) (hclear : downKeyOf c ≠ some .clear)
    (k : Mech.Kept p now P) (settle : ∀ m, P m → P (m.settle p now)) (act : ∀ n, MechAct p now m c n → P n)
    (feed : ∀ m u, u = m.punch.feedDown p now ∨ u = m.punch.feedUp → P m → P { m with punch := u })
    (mode : ∀ m d, P m → P { m with motor := ({ m.motor with mode := d } : Motor).restartIdle p now })
    (part : ∀ b x, P { m with printer := { m.printer with bell := b }, punch := { m.punch with cycle := x } })
    (flag : ∀ low, P { m with punch := { m.punch with tapeLow := low } }) (hm : P m) : P n := by
  cases h with
  | acted h => exact settle _ (act _ h)
  | settled h =>
    refine settle _ (k.goes (fun m n hm ho => ?_) h hm)
    cases ho with
    | clear hc => exact absurd hc hclear
    | feedDown => exact feed m _ (.inl rfl) hm
    | feedUp => exact feed m _ (.inr rfl) hm
    | mode d => exact mode m d hm
  | queue q => exact k.queue m q hm
  | bell => exact part none m.punch.cycle
  | magnets x => exact part m.printer.bell _
  | tapeFlag low => exact flag low

theorem downKeyOf_eq_clear {c : Instr} (h : downKeyOf c = some .clear) : ∃ u, c = .clear u ∨ c = .keyDown .clear u := by
  cases c <;> simp_all [downKeyOf]

/-- Settles O7: each part's FAULT through `Mech.Leaves`, the settling and the events of every other command. -/
theorem faultsAreLeftOnlyByClear : Obligations.FaultsAreLeftOnlyByClear := by
  intro c s t h hw hprinter hpunch hmotor hleft
  rcases exec_cases h with rfl | ⟨rfl, -⟩ | ⟨bits, pins, u, -, hr, -⟩ | ⟨-, u, hact⟩
  · exact absurd hleft (by tauto)
  · exact .inl rfl
  · simp [hw] at hr
  · by_cases hclear : downKeyOf c = some .clear
    · exact .inr (downKeyOf_eq_clear hclear)
    have hl := hact.leaves.mech
    obtain ⟨hsafe, -⟩ := (State.printerSafe_iff s).mp hprinter
    rcases hleft with ⟨hf, hn⟩ | ⟨hf, hn⟩ | ⟨hf, hn⟩
    · have hm : s.mech.printerAt .fault := ⟨hf, hsafe.stop_eq_none (by simp [hf])⟩
      exact absurd (hl.fault hclear (Mech.printerAt_kept _ _ (by decide)) (fun _ => Mech.settle_printerAt (by decide))
        (fun _ ha => ha.printer_fault hm) (fun _ _ _ h => h) (fun _ _ h => h) (fun _ _ => hm) (fun _ => hm) hm).1 hn
    · refine absurd (hl.fault hclear (Mech.punchState_kept _ _ (.inr rfl)) (fun _ => Mech.settle_punchState (.inr rfl))
        (fun _ ha => ha.punch_fault hf) ?_ (fun _ _ h => h) (fun _ _ => hf) (fun _ => hf) hf) hn
      rintro m _ (rfl | rfl) h
      · unfold Punch.feedDown
        split
        · exact h
        · simp [h]
      · exact h
    · exact absurd (hl.fault hclear (Mech.motorFault_kept _ _) (fun _ => Mech.settle_motor_fault)
        (fun _ ha => ha.motor_fault hmotor hf) (fun _ _ _ h => h) (fun m d h => (Motor.restartIdle_state ..).trans h)
        (fun _ _ => hf) (fun _ => hf) hf) hn

end Sys2Proof.Machine
end

section
/-! The punch's cycle, pending stop and feed mode (R126, R127, R135). -/

namespace Sys2Proof.Machine

open Sys2Proof

variable {p : Params} {now : Ticks} {c : Instr} {m n : Mech}

/-- The punch's relations before it stands: an entry taken may have put a cycle in flight in an IDLE punch. -/
structure Punch.Near (u : Punch) : Prop where
  cycle : u.cycle.isSome = true → u.state = .cycling ∨ u.state = .tapeLowFinish ∨ u.state = .idle
  cycling : u.state = .cycling → u.cycle.isSome = true
  stop : u.stop = true → u.state = .cycling
  continuous : u.feed = .continuous → u.state = .cycling ∧ u.stop = false ∧ u.tapePresent = true
  waiting : u.feed = .waiting → u.state = .off
  usable : u.state = .off ∨ u.state = .idle → u.tapeUsable = true
  low : u.state = .cycling → u.tapePresent = true → u.tapeLow = false

/-- The punch's relations once it stands: an IDLE punch has no cycle in flight. -/
structure Punch.Safe (u : Punch) : Prop extends u.Near where
  idle : u.state = .idle → u.cycle = none

theorem State.punchSafe_iff (s : State) : s.punchSafe ↔
    s.mech.punch.Safe ∧ (s.working = false → s.mech.punch.cycle = none ∧ s.mech.punch.feed = .none) := by
  constructor
  · rintro ⟨h1, h2, h3, h4, h5, h6, h7, h8⟩
    refine ⟨⟨⟨fun hc => (h1 hc).imp_right .inl, h2, h3, h4, h5, h6, h7⟩, fun hi => ?_⟩, h8⟩
    by_contra hc
    have := h1 (Option.isSome_iff_ne_none.mpr hc)
    simp [hi] at this
  · rintro ⟨⟨⟨h1, h2, h3, h4, h5, h6, h7⟩, hidle⟩, h8⟩
    refine ⟨fun hc => ?_, h2, h3, h4, h5, h6, h7, h8⟩
    rcases h1 hc with h | h | h
    · exact .inl h
    · exact .inr h
    · simp [hidle h] at hc

namespace Punch

variable {u : Punch}

theorem Near.inRun (h : u.Near) (b : Bool) : ({ u with inRun := b } : Punch).Near := by
  obtain ⟨h1, h2, h3, h4, h5, h6, h7⟩ := h
  exact ⟨h1, h2, h3, h4, h5, h6, h7⟩

theorem Safe.inRun (h : u.Safe) (b : Bool) : ({ u with inRun := b } : Punch).Safe := ⟨h.toNear.inRun b, h.idle⟩

theorem stopped_ne_continuous (f : FeedMode) : f.stopped ≠ .continuous := by cases f <;> decide

theorem stopped_ne_waiting (f : FeedMode) : f.stopped ≠ .waiting := by cases f <;> decide

/-- Feeding that ends leaves nothing to ask of the feed mode. -/
theorem Near.feedStopped (h : u.Near) : ({ u with feed := u.feed.stopped } : Punch).Near := by
  obtain ⟨h1, h2, h3, -, -, h6, h7⟩ := h
  exact ⟨h1, h2, h3, fun hc => absurd hc (stopped_ne_continuous _), fun hc => absurd hc (stopped_ne_waiting _), h6, h7⟩

theorem Near.switched (h : u.Near) (pos : PunchSwitch) : (u.setSwitch pos).Near := by
  have hf : (if pos = .off then u.feed.stopped else u.feed) = u.feed.stopped ∨
      (if pos = .off then u.feed.stopped else u.feed) = u.feed := by
    split
    · exact .inl rfl
    · exact .inr rfl
  unfold Punch.setSwitch
  rcases hf with hf | hf <;> rw [hf]
  · obtain ⟨h1, h2, h3, h4, h5, h6, h7⟩ := h.feedStopped
    exact ⟨h1, h2, h3, h4, h5, h6, h7⟩
  · obtain ⟨h1, h2, h3, h4, h5, h6, h7⟩ := h
    exact ⟨h1, h2, h3, h4, h5, h6, h7⟩

theorem Near.cycle_eq_none (h : u.Near) (h1 : u.state ≠ .cycling) (h2 : u.state ≠ .tapeLowFinish)
    (h3 : u.state ≠ .idle) : u.cycle = none := by
  by_contra hc
  have := h.cycle (Option.isSome_iff_ne_none.mpr hc)
  tauto

theorem Near.stop_eq_false (h : u.Near) (hst : u.state ≠ .cycling) : u.stop = false :=
  Bool.eq_false_iff.mpr fun hs => hst (h.stop hs)

theorem Near.feed_quiet (h : u.Near) (hst : u.state ≠ .cycling) (ho : u.state ≠ .off) :
    u.feed = .none ∨ u.feed = .oneShot := by
  cases hf : u.feed with
  | none => exact .inl rfl
  | oneShot => exact .inr rfl
  | continuous => exact absurd (h.continuous hf).1 hst
  | waiting => exact absurd (h.waiting hf) ho

/-- A BLANK cycle begins in continuous feeding with usable tape (R135). -/
theorem Near.fed (hs : u.stop = false) (ht : u.tapeUsable = true) :
    ({ u with feed := .continuous } : Punch).feedCycle p now |>.Near := by
  simp only [tapeUsable, Bool.and_eq_true, Bool.not_eq_true'] at ht
  unfold Punch.feedCycle
  exact ⟨fun _ => .inl rfl, fun _ => rfl, fun _ => rfl, fun _ => ⟨rfl, hs, ht.1⟩, nofun, nofun, fun _ _ => ht.2⟩

theorem Near.feedDown (h : u.Near) : (u.feedDown p now).Near := by
  unfold Punch.feedDown
  split
  · exact h
  · split
    · rename_i hi
      exact .fed (h.stop_eq_false (by simp [hi])) (h.usable (.inr hi))
    · rename_i ho
      obtain ⟨h1, h2, h3, -, -, h6, h7⟩ := h
      exact ⟨h1, h2, h3, nofun, fun _ => ho, h6, h7⟩
    · exact h

theorem Near.clearFault (h : u.Near) (running : Bool) : (u.clearFault running).Near := by
  unfold Punch.clearFault
  split
  · rename_i hf
    have hc := h.cycle_eq_none (by simp [hf]) (by simp [hf]) (by simp [hf])
    have hs := h.stop_eq_false (by simp [hf])
    have hq := h.feed_quiet (by simp [hf]) (by simp [hf])
    cases hu : u.tapeUsable <;> cases running <;> constructor <;>
      simp [hc, hs] <;> rcases hq with hq | hq <;> simp_all [Punch.tapeUsable]
  · exact h

theorem Safe.complete_of_cycling (h : u.Safe) (hs : u.state = .cycling) : (u.complete p now).Near := by
  obtain ⟨⟨-, -, h3, h4, h5, -, h7⟩, -⟩ := h
  simp only [Punch.complete, hs]
  split
  · constructor <;> grind [Punch.tapeUsable]
  · split
    · constructor <;> grind [Punch.tapeUsable]
    · split <;> constructor <;> grind [Punch.tapeUsable, Punch.feedCycle]

theorem Safe.complete (h : u.Safe) : (u.complete p now).Near := by
  by_cases hs : u.state = .cycling
  · exact h.complete_of_cycling hs
  obtain ⟨⟨h1, h2, h3, h4, h5, h6, h7⟩, h8⟩ := h
  unfold Punch.complete
  dsimp only
  split
  · split <;> constructor <;> grind [Punch.tapeUsable]
  · contradiction
  · constructor <;> grind [Punch.tapeUsable]

theorem timedOut_near (u : Punch) : u.timedOut.Near := by
  unfold Punch.timedOut
  constructor <;> simp

theorem Safe.lowTape (h : u.Safe) : u.lowTape.Near := by
  obtain ⟨⟨h1, h2, h3, h4, h5, h6, h7⟩, h8⟩ := h
  unfold Punch.lowTape
  dsimp only
  split
  · split <;> constructor <;> grind [Punch.tapeUsable]
  · split <;> constructor <;> grind [Punch.tapeUsable]
  · constructor <;> grind [Punch.tapeUsable]
  · constructor <;> grind [Punch.tapeUsable]
  · constructor <;> grind [Punch.tapeUsable]
  · constructor <;> grind [Punch.tapeUsable]

theorem Safe.goneTape (h : u.Safe) : u.goneTape.Near := by
  obtain ⟨⟨h1, h2, h3, h4, h5, h6, h7⟩, h8⟩ := h
  unfold Punch.goneTape
  dsimp only
  split
  · constructor <;> grind [Punch.tapeUsable]
  · constructor <;> grind [Punch.tapeUsable]
  · constructor <;> grind [Punch.tapeUsable]
  · split <;> constructor <;> grind [Punch.tapeUsable]
  · constructor <;> grind [Punch.tapeUsable]
  · constructor <;> grind [Punch.tapeUsable]

theorem Safe.newTape (h : u.Safe) (running : Bool) : (u.newTape running).Near := by
  obtain ⟨⟨h1, h2, h3, h4, h5, h6, h7⟩, h8⟩ := h
  unfold Punch.newTape
  dsimp only
  split
  · constructor <;> grind [Punch.tapeUsable]
  · split <;> constructor <;> grind [Punch.tapeUsable]
  · constructor <;> grind [Punch.tapeUsable]

theorem Safe.motorLeft (h : u.Safe) : u.motorLeft.Near := by
  have hs : ({ u with feed := u.feed.stopped } : Punch).Safe := ⟨h.toNear.feedStopped, h.idle⟩
  obtain ⟨⟨h1, h2, h3, h4, h5, h6, h7⟩, h8⟩ := hs
  have hc := stopped_ne_continuous u.feed
  have hw := stopped_ne_waiting u.feed
  unfold Punch.motorLeft
  dsimp only
  split
  · constructor <;> grind [Punch.tapeUsable]
  · constructor <;> grind [Punch.tapeUsable]
  · exact h.toNear.feedStopped

theorem Safe.motorReached (h : u.Safe) : (u.motorReached p now).Near := by
  obtain ⟨⟨h1, h2, h3, h4, h5, h6, h7⟩, h8⟩ := h
  unfold Punch.motorReached
  split
  · split
    · split <;> constructor <;> grind [Punch.tapeUsable, Punch.feedCycle]
    · constructor <;> grind [Punch.tapeUsable]
  · constructor <;> grind [Punch.tapeUsable]
  · constructor <;> grind [Punch.tapeUsable]

end Punch

/-- A standing punch is CYCLING exactly with a cycle in flight, and a run that low tape let be finished is over. -/
theorem Mech.punchStand_safe (h : m.punch.Near) : m.punchStand.punch.Safe := by
  obtain ⟨h1, h2, h3, h4, h5, h6, h7⟩ := h
  have hnone := Option.isNone_iff_eq_none (o := m.punch.cycle)
  have hsome := Option.isSome_iff_ne_none (o := m.punch.cycle)
  unfold Mech.punchStand
  dsimp only
  split
  · exact ⟨by constructor <;> grind [Punch.tapeUsable], by grind⟩
  · exact ⟨by constructor <;> grind [Punch.tapeUsable], by grind⟩
  · split
    · exact ⟨by constructor <;> grind [Punch.tapeUsable], by grind⟩
    · exact ⟨by constructor <;> grind [Punch.tapeUsable], by grind⟩
  · exact ⟨by constructor <;> grind [Punch.tapeUsable], by grind⟩

theorem Mech.punch_near_kept (p : Params) (now : Ticks) : Mech.Kept p now (fun m => m.punch.Near) where
  rest m q b h := h.inRun b
  move m n h hn := by
    obtain ⟨b, hb⟩ := (Mech.printStep_keeps hn).2.2
    rw [hb]; exact h.inRun b
  take m n h hn := by
    obtain ⟨hp, -, -, hn⟩ := Mech.punchStep_keeps hn
    simp only [Mech.punching, Bool.and_eq_true, Bool.or_eq_true, beq_iff_eq, Option.isNone_iff_eq_none] at hp
    obtain ⟨h1, h2, h3, h4, h5, h6, h7⟩ := h
    rcases hn with ⟨row, b, hb⟩ | ⟨b, hb⟩ | ⟨b, ht, hb⟩ <;> rw [hb] <;> constructor <;> grind [Punch.tapeUsable]
  printStand m h := by rw [Mech.printStand_punch]; exact h
  ring _ h := h
  startEvent _ h := h
  restartIdle _ h := h

theorem Mech.settle_punch_safe (h : m.punch.Near) : (m.settle p now).punch.Safe :=
  (Mech.punch_near_kept p now).settle (Q := fun m => m.punch.Safe) (fun _ h => Mech.punchStand_safe h)
    (fun _ h => h) (fun _ h => h) m (by rwa [Mech.printStand_punch])

theorem MechAct.punch_near (h : MechAct p now m c n) (hm : m.punch.Safe) : n.punch.Near := by
  cases h with
  | wheel index =>
    obtain ⟨b, hb⟩ := m.wheelEvent_punch p now index
    rw [hb]; exact hm.toNear.inRun b
  | hammerPulse | hammerRecovery | carriageStep | lineTime | marginContact | returnTimeout | paperOut | paperIn =>
    exact hm.toNear
  | punchSwitch a b t =>
    obtain ⟨x, hx⟩ := Mech.rest_punch { m with punch := m.punch.setSwitch (switchPosition a b) }
    rw [hx]; exact (hm.toNear.switched _).inRun x
  | punchDone => exact hm.complete
  | punchTimeout => exact m.punch.timedOut_near
  | tapeLow => exact hm.lowTape
  | tapeGone => exact hm.goneTape
  | tapeReplaced => exact hm.newTape _
  | runUp =>
    unfold Mech.runUpExpired
    split
    · exact hm.motorReached
    · exact hm.toNear
  | speedOk ok =>
    unfold Mech.speedChanged
    dsimp only
    split
    · exact hm.motorLeft
    · exact hm.toNear
  | idleTimer => exact hm.motorLeft

theorem Mech.Leaves.punch_safe (h : Mech.Leaves p now c m n) (hm : m.punch.Safe) : n.punch.Safe := by
  cases h with
  | acted h => exact Mech.settle_punch_safe (h.punch_near hm)
  | settled h =>
    refine Mech.settle_punch_safe ((Mech.punch_near_kept p now).goes (fun m n hm ho => ?_) h hm.toNear)
    cases ho with
    | clear => exact hm.clearFault _
    | feedDown => exact hm.feedDown
    | feedUp => exact hm.feedStopped
    | mode => exact hm
  | queue | bell => exact hm
  | magnets x hx =>
    obtain ⟨⟨h1, h2, h3, h4, h5, h6, h7⟩, h8⟩ := hm
    exact ⟨⟨fun _ => h1 (by simp [hx]), fun _ => rfl, h3, h4, h5, h6, h7⟩, fun hi => by simp [h8 hi] at hx⟩
  | tapeFlag low t _ hp =>
    obtain ⟨⟨h1, h2, h3, h4, h5, h6, h7⟩, h8⟩ := hm
    exact ⟨⟨h1, h2, h3, h4, h5, fun hi => absurd (h6 hi) (by simp [Punch.tapeUsable, hp]),
      fun _ ht => absurd ht (by simp [hp])⟩, h8⟩

theorem State.working_of_loader_eq {s t : State} (hl : t.loader = s.loader) (hw : s.working = true) :
    t.working = true := by rwa [State.working, hl]

/-- Settles O15: the punch by the moves of the mechanism, and by the tape it finds at the read's end. -/
theorem punchStaysSafe : Obligations.PunchStaysSafe := by
  intro s t hs ht
  refine step_keeps (P := State.punchSafe) (fun _ _ h => h) (fun _ _ h => h) (fun s => ?start)
    (fun s bits pins u hw hbits h => ?read) (fun c s t hw h hact => ?acts) ht hs
  case start =>
    have hr : State.reset.punchSafe := by decide
    exact hr
  case read =>
    obtain ⟨hr, hread⟩ := (State.punchSafe_iff s).mp h
    obtain ⟨hcycle, hfeed⟩ := hread hw
    refine (State.punchSafe_iff _).mpr ⟨?_, fun hn => absurd (s.readEnd_working bits pins u) (by simp [hn])⟩
    rw [State.readEnd_mech]
    refine Mech.settle_punch_safe ?_
    obtain ⟨⟨h1, h2, h3, h4, h5, h6, h7⟩, h8⟩ := hr
    simp only [Mech.readInputs]
    constructor <;> grind [Punch.tapeUsable]
  case acts =>
    obtain ⟨hr, -⟩ := (State.punchSafe_iff s).mp h
    have hw' := State.working_of_loader_eq hact.leaves.loader hw
    exact (State.punchSafe_iff _).mpr ⟨hact.leaves.mech.punch_safe hr, fun hn => absurd hw' (by simp [hn])⟩

end Sys2Proof.Machine
end

section
/-! CONFIG_READ_END: what the read's end makes of the image and of the inputs (R181 to R186). -/

namespace Sys2Proof.Machine

open Sys2Proof

theorem imageAccepted_iff (image : List Nat) : imageAccepted image = true ↔
    imageByte image 0 = 166 ∧ imageByte image 46 ≤ 3 ∧
      addSymbol ((image.take 46).foldl addSymbol 0) (256 * imageByte image 46 + imageByte image 47) = 1023 := by
  simp [imageAccepted, and_assoc]

theorem Loader.readEnd_eq (l : Loader) {bits : List Bool} (h : bits.length = Config.imageClocks) :
    (l.readEnd bits).select = false ∧ (l.readEnd bits).count = 48 ∧ (l.readEnd bits).clocks = 384 ∧
      (l.readEnd bits).taken = [] := by
  rw [Loader.readEnd, Loader.read_eq l bits h, Loader.judge]
  split <;> exact ⟨rfl, rfl, rfl, rfl⟩

/-- The image read, byte by byte. -/
def readImage (bits : List Bool) : List Nat := (List.range 48).map (byteOf bits)

theorem Loader.readEnd_accepted (l : Loader) {bits : List Bool} (h : bits.length = Config.imageClocks)
    (ha : imageAccepted (readImage bits) = true) :
    (l.readEnd bits).image = clampImage (readImage bits) ∧
      (l.readEnd bits).standing = (if 31 ≤ byteOf bits 1 then .listenOnly else .configured) ∧
      (l.readEnd bits).params = imageParams (clampImage (readImage bits)) := by
  rw [Loader.readEnd, Loader.read_eq l bits h]
  unfold Loader.judge
  dsimp only
  rw [← readImage, if_pos ha]
  have hone : clampByte 1 (byteOf bits 1) = 31 ↔ 31 ≤ byteOf bits 1 := by
    rw [clampByte_of_ne_five (by decide)]
    simp only [byteRange]
    omega
  refine ⟨by dsimp only, ?_, by dsimp only⟩
  rw [readImage, imageByte_clampImage (show 1 < 48 by decide)]
  simp only [hone]

theorem Loader.readEnd_refused (l : Loader) {bits : List Bool} (h : bits.length = Config.imageClocks)
    (ha : ¬ imageAccepted (readImage bits) = true) :
    (l.readEnd bits).image = readImage bits ∧ (l.readEnd bits).standing = .unconfigured ∧
      (l.readEnd bits).params = Params.default := by
  rw [Loader.readEnd, Loader.read_eq l bits h]
  unfold Loader.judge
  dsimp only
  rw [← readImage, if_neg ha]
  exact ⟨rfl, rfl, rfl⟩

theorem byteRange_of_answerBack {i : Nat} (h : i < 20) : byteRange (26 + i) = (0, 31) := by
  revert i
  decide

/-- The parameters of an accepted image, byte by byte within its range (R182, R184). -/
theorem imageParams_clampImage (f : Nat → Nat) :
    let within (low high i : Nat) : Nat := max low (min high (f i))
    imageParams (clampImage ((List.range 48).map f)) = {
      own := some (toCode (within 0 31 1))
      careMask := toCode (within 0 31 2), groupSet := toCode (within 0 31 3)
      slots := within 1 31 4
      rate := min 5 (f 5 % 16), stopCode := min 2 (f 5 / 16)
      quiet := within 8 31 6, glitch := within 1 4 7
      retryLimit := within 0 3 8, errorThreshold := within 1 62 9
      breakLimit := within 20 150 10, lineLength := within 20 80 11
      overprint := decide (within 0 3 12 % 2 = 1)
      unshift := decide (within 0 3 12 / 2 = 1)
      blankLines := within 0 3 13, leader := within 0 31 14
      hammerPulse := within 5 40 15, hammerRecovery := within 2 20 16
      carriageStep := within 4 40 17, returnTimeout := within 10 250 18
      lineTime := within 20 250 19, punchPulse := within 2 20 20
      punchTimeout := within 25 250 21, runUp := within 10 200 22
      attendedIdle := within 10 255 23, unattendedIdle := within 2 60 24
      answerBack := (List.range (within 1 20 25)).map fun i => toCode (within 0 31 (26 + i)) } := by
  intro within
  have hbyte (i : Nat) (hi : i < 48) (h5 : i ≠ 5) :
      imageByte (clampImage ((List.range 48).map f)) i = within (byteRange i).1 (byteRange i).2 i := by
    rw [imageByte_clampImage hi, clampByte_of_ne_five h5]
  have hline : imageByte (clampImage ((List.range 48).map f)) 5 = 16 * min 2 (f 5 / 16) + min 5 (f 5 % 16) :=
    imageByte_clampImage (by decide)
  have hrate : (16 * min 2 (f 5 / 16) + min 5 (f 5 % 16)) % 16 = min 5 (f 5 % 16) := by omega
  have hstop : (16 * min 2 (f 5 / 16) + min 5 (f 5 % 16)) / 16 = min 2 (f 5 / 16) := by omega
  have hback : ((clampImage ((List.range 48).map f)).drop 26).take (within 1 20 25) =
      (List.range (within 1 20 25)).map fun i => within 0 31 (26 + i) := by
    refine List.ext_getElem ?_ fun i h1 h2 => ?_
    · simp [clampImage, within]
    · have hi : i < 20 := by simp [within] at h2; omega
      simp [clampImage, clampByte_of_ne_five (show 26 + i ≠ 5 by omega), byteRange_of_answerBack hi, within]
  have hlast : imageByte (clampImage ((List.range 48).map f)) 25 = within 1 20 25 := hbyte 25 (by decide) (by decide)
  have hbits (n : Nat) : (n == 1) = decide (n = 1) := rfl
  simp (disch := decide) only [imageParams, hline, hrate, hstop, hlast, hback, List.map_map, Function.comp_def, hbits,
    hbyte, byteRange]

theorem byteOf_readImage (bits : List Bool) {i : Nat} (h : i < 48) : imageByte (readImage bits) i = byteOf bits i :=
  imageByte_map_range h

theorem readImage_eq (bits : List Bool) : readImage bits = (List.range 48).map fun i => byteOf bits i := rfl

theorem readImage_accepted_iff (bits : List Bool) : imageAccepted (readImage bits) = true ↔
    byteOf bits 0 = 166 ∧ byteOf bits 46 ≤ 3 ∧
      addSymbol (((readImage bits).take 46).foldl addSymbol 0) (256 * byteOf bits 46 + byteOf bits 47) = 1023 := by
  rw [imageAccepted_iff, byteOf_readImage bits (show 0 < 48 by decide),
    byteOf_readImage bits (show 46 < 48 by decide), byteOf_readImage bits (show 47 < 48 by decide)]

/-- The blocks read their inputs, and the read request's place is taken by the start notice's (R186). -/
theorem State.readEnd_inputs (s : State) (bits : List Bool) (pins : Inputs) (u : Ticks) :
    (s.readEnd bits pins u).mech.inputs = (s.mech.readInputs pins).inputs := by
  rw [State.readEnd_mech, Mech.settle_inputs]
  rfl

/-- The blocks that have no input keep what they hold. -/
theorem State.readEnd_others (s : State) (bits : List Bool) (pins : Inputs) (u : Ticks) :
    (s.readEnd bits pins u).now = s.now ∧ (s.readEnd bits pins u).listener = s.listener ∧
      (s.readEnd bits pins u).matcher = s.matcher ∧ (s.readEnd bits pins u).keyer = s.keyer ∧
      (s.readEnd bits pins u).receiver = s.receiver.firstSample pins.line u := by
  simp only [State.readEnd, State.settle_now, State.post_now, State.settle_listener, State.post_listener,
    State.settle_matcher, State.post_matcher, State.settle_keyer, State.post_keyer, State.settle_receiver,
    State.post_receiver, and_self]

theorem State.readEnd_requests (s : State) (bits : List Bool) (pins : Inputs) (u : Ticks) :
    (s.readEnd bits pins u).mech.queue.requests =
      (s.mech.queue.post (.start (s.loader.readEnd bits).standing.digit)).requests := by
  rw [State.readEnd_mech]
  exact congrArg (fun port => port.2.2.2.1) (Mech.settle_frame ..).1

theorem State.readEnd_paperOut {s : State} (bits : List Bool) (pins : Inputs) (u : Ticks) (h : pins.paper = false)
    (hs : s.mech.printer.stop = .none) : (s.readEnd bits pins u).mech.printer.state = .paperOut := by
  rw [State.readEnd_mech]
  refine (Mech.settle_printerAt (st := .paperOut) (by decide) ?_).1
  simp [Mech.printerAt, Mech.readInputs, h, hs]

theorem State.readEnd_tapeOut (s : State) (bits : List Bool) (pins : Inputs) (u : Ticks)
    (h : pins.tapeLow = true ∨ pins.tapePresent = false) : (s.readEnd bits pins u).mech.punch.state = .tapeOut := by
  rw [State.readEnd_mech]
  refine Mech.settle_punchState (.inl rfl) ?_
  rcases h with h | h <;> simp [Mech.readInputs, h]

/-- A request joins the waiting ones while fewer than 4 wait (R95). -/
theorem CopyQueue.post_requests (q : CopyQueue) (r : Request) :
    (q.post r).requests = if q.requests.length < 4 then q.requests ++ [r] else q.requests :=
  apply_ite CopyQueue.requests (q.requests.length < 4) { q with requests := q.requests ++ [r] } q

/-- Settles O19: the loader by the bytes read, the blocks' inputs by `Mech.settle_inputs`, the stopped parts at rest. -/
theorem configReadEndJudgesTheImage : Obligations.ConfigReadEndJudgesTheImage := by
  refine fun s bits pins u => ⟨fun h => ?ignored, fun hw hsafe hbits => ?read⟩
  case ignored =>
    have hno : ¬ ((!s.working && bits.length == Config.imageClocks) = true) := by
      rcases h with h | h <;> simp [h, Config.imageClocks]
    simp only [exec, execConfigReadEnd, if_neg hno]
  case read =>
    have hbits' : bits.length = Config.imageClocks := hbits
    have hyes : (!s.working && bits.length == Config.imageClocks) = true := by simp [hw, hbits']
    refine ⟨(s.at u).readEnd bits pins (max s.now u), by simp only [exec, execConfigReadEnd, if_pos hyes], ?_⟩
    dsimp only
    simp only [← byteOf_eq bits, ← readImage_eq bits, ← readImage_accepted_iff bits]
    have hloader := s.loader.readEnd_eq hbits'
    have hdigit : (s.loader.readEnd bits).standing.digit =
        if ¬ imageAccepted (readImage bits) = true then 1 else if 31 ≤ byteOf bits 1 then 2 else 0 := by
      by_cases ha : imageAccepted (readImage bits) = true
      · rw [(s.loader.readEnd_accepted hbits' ha).2.1, if_neg (not_not.mpr ha)]
        split <;> rfl
      · rw [(s.loader.readEnd_refused hbits' ha).2.1, if_pos ha]
        rfl
    have hparams := imageParams_clampImage (byteOf bits)
    have hcol := ((State.printerSafe_iff s).mp hsafe).2 hw
    have hinputs := State.readEnd_inputs (s.at u) bits pins (max s.now u)
    simp only [Mech.inputs, Punch.flags, Mech.readInputs, Prod.mk.injEq] at hinputs
    obtain ⟨hmode, hspeed, hpaper, -, hswitch, hpresent, hlow⟩ := hinputs
    obtain ⟨hnow, hlistener, hmatcher, hkeyer, hreceiver⟩ := State.readEnd_others (s.at u) bits pins (max s.now u)
    simp only [State.at_now, State.at_listener, State.at_matcher, State.at_keyer] at hnow hlistener hmatcher hkeyer
    simp only [State.readEnd_loader, State.at_loader, hreceiver, Receiver.firstSample]
    refine ⟨hnow, hloader.1, hloader.2.1, hloader.2.2.1, hloader.2.2.2, fun ha => ?accepted,
      s.loader.readEnd_refused hbits', trivial, trivial, trivial, fun h => if_pos h, fun h => if_pos h, hlistener, hmatcher, hkeyer, hpaper,
      fun h => ?paperOut, hlow, hpresent, fun h => ?tapeOut, hswitch, hspeed, hmode, ?requests⟩
    case accepted =>
      obtain ⟨himage, hstanding, hp⟩ := s.loader.readEnd_accepted hbits' ha
      exact ⟨himage, hstanding, hp.trans hparams⟩
    case paperOut =>
      exact State.readEnd_paperOut _ _ _ h hcol.2
    case tapeOut =>
      exact State.readEnd_tapeOut _ _ _ _ h
    case requests =>
      rw [State.readEnd_requests, State.at_loader, hdigit, CopyQueue.post_requests]
      rfl

end Sys2Proof.Machine
end

section
/-! What an attempt supplies, stage by stage (R50, R51, R55). -/

namespace Sys2Proof.Machine

open Sys2Proof

/-! ### The text as R50 has it sent -/

theorem asSent_of_ne {c : Code} (h : c ≠ 25) (rest : List Code) : asSent (c :: rest) = c :: asSent rest := by
  cases rest <;> simp [asSent, h]

theorem asSent_pair (f : Code) (rest : List Code) : asSent (25 :: f :: rest) = 25 :: sentFunction (some f) :: asSent rest := by
  simp [asSent]

theorem sentFunction_none : sentFunction none = 0 := rfl

/-! ### One character -/

namespace Attempt

variable {head text : List Code} {a : Attempt}

theorem supplied_succ (n : Nat) {b : Attempt} {c : Code} (h : a.supply head text = (b, some c)) :
    supplied head text (n + 1) a = c :: supplied head text n b := by
  simp [supplied, h]

theorem supplied_of_finished {cancelled : Bool} (h : a.stage = .finished cancelled) (n : Nat) :
    supplied head text n a = [] := by
  induction n with
  | zero => rfl
  | succ n ih => simp [supplied, supply, h, ih]

/-- The two check characters of an attempt, and nothing after them (R8, R51). -/
theorem supplied_of_checkHigh (h : a.stage = .checkHigh) (more : Nat) :
    supplied head text (2 + more) a = [toCode ((1023 - a.acc) / 32), toCode ((1023 - a.acc) % 32)] := by
  rw [Nat.add_comm 2, supplied_succ (more + 1) (by simp only [supply, h]; rfl),
    supplied_succ more (by simp only [supply]; rfl), supplied_of_finished rfl]

/-- The closing END pads the check, whose value is then supplied (R6, R8). -/
theorem supplied_of_closingEnd (h : a.stage = .closingEnd) (hc : a.cancel = false) (more : Nat) :
    supplied head text (3 + more) a =
      [2, toCode ((1023 - padCheck a.acc a.temp) / 32), toCode ((1023 - padCheck a.acc a.temp) % 32)] := by
  have hs : a.supply head text =
      ({ a with acc := padCheck a.acc a.temp, temp := none, stage := .checkHigh }, some 2) := by
    simp [supply, h, hc]
  rw [show 3 + more = 2 + more + 1 by omega, supplied_succ _ hs, supplied_of_checkHigh rfl]

/-- The closing pair and the check characters, with the sum over what the check has covered and what it still covers. -/
def closing (covered : List Code) (sum : Nat × Option Code) : List Code :=
  let value := 1023 - checkOf covered sum
  [25, 2, toCode (value / 32), toCode (value % 32)]

/-- A covered character in front belongs to what the closing covers. -/
theorem closing_cons (c : Code) (cs : List Code) (acc : Nat) (temp : Option Code) :
    closing (c :: cs) (acc, temp) = closing cs (feedCheck acc temp c) := rfl

theorem supplied_of_textEnd {pos : Nat} (h : a.stage = .text pos false) (hc : a.cancel = false)
    (hpos : text[pos]? = none) (more : Nat) :
    supplied head text (4 + more) a = closing [] (a.acc, a.temp) := by
  have hs : a.supply head text = ({ a with stage := .closingEnd }, some 25) := by simp [supply, h, hc, hpos]
  rw [show 4 + more = 3 + more + 1 by omega, supplied_succ _ hs, supplied_of_closingEnd (a := { a with stage := .closingEnd }) rfl hc]
  rfl

@[simp] theorem cover_cancel (a : Attempt) (c : Code) (next : Stage) : (a.cover c next).cancel = a.cancel := rfl

@[simp] theorem cover_stage (a : Attempt) (c : Code) (next : Stage) : (a.cover c next).stage = next := rfl

theorem supply_control {pos : Nat} (h : a.stage = .text pos false) (hc : a.cancel = false)
    (hpos : text[pos]? = some 25) : a.supply head text = (a.cover 25 (.text (pos + 1) true), some 25) := by
  simp [supply, h, hc, hpos]

theorem supply_plain {pos : Nat} {c : Code} (h : a.stage = .text pos false) (hc : a.cancel = false)
    (hpos : text[pos]? = some c) (hne : c ≠ 25) :
    a.supply head text = (a.cover c (.text (pos + 1) false), some c) := by
  have hb : (c == 25) = false := by simpa using hne
  simp [supply, h, hc, hpos, hb]

theorem supply_function {pos : Nat} (h : a.stage = .text pos true) :
    a.supply head text = (a.cover (sentFunction text[pos]?) (.text (min (pos + 1) text.length) false),
      some (sentFunction text[pos]?)) := by
  simp [supply, h]

/-- From a place of the text on, an attempt supplies the rest as R50 has it sent, then the closing. -/
theorem supplied_of_text (rest : List Code) (pos : Nat) (hrest : text.drop pos = rest) (h : a.stage = .text pos false)
    (hc : a.cancel = false) (more : Nat) :
    supplied head text ((asSent rest).length + 4 + more) a =
      asSent rest ++ closing (asSent rest) (a.acc, a.temp) := by
  have hget (i : Nat) : text[pos + i]? = rest[i]? := by rw [← hrest, List.getElem?_drop]
  induction rest using asSent.induct generalizing pos a with
  | case1 => 
    have hpos : text[pos]? = none := by simpa using hget 0
    simpa [asSent] using supplied_of_textEnd h hc hpos more
  | case2 =>
    have hpos : text[pos]? = some 25 := by simpa using hget 0
    have hnext : text[pos + 1]? = none := by simpa using hget 1
    have hlen : text.length = pos + 1 := by
      have := congrArg List.length hrest
      simp at this; omega
    have hstep : (a.cover 25 (.text (pos + 1) true)).supply head text =
        (_, some (sentFunction text[pos + 1]?)) := supply_function rfl
    rw [show (asSent [25]).length + 4 + more = 4 + more + 1 + 1 by simp [asSent]; omega,
      supplied_succ _ (supply_control h hc hpos), supplied_succ _ hstep]
    rw [supplied_of_textEnd (a := (a.cover 25 (.text (pos + 1) true)).cover _ _) rfl hc (by simp [hlen]), hnext]
    rfl
  | case3 c hne =>
    have hpos : text[pos]? = some c := by simpa using hget 0
    have hnext : text[pos + 1]? = none := by simpa using hget 1
    rw [show (asSent [c]).length + 4 + more = 4 + more + 1 by simp [asSent, hne]; omega,
      supplied_succ _ (supply_plain h hc hpos hne)]
    rw [supplied_of_textEnd (a := a.cover c _) rfl hc hnext, asSent_of_ne hne]
    rfl
  | case4 f rest ih =>
    have hpos : text[pos]? = some 25 := by simpa using hget 0
    have hnext : text[pos + 1]? = some f := by simpa using hget 1
    have hdrop : text.drop (pos + 2) = rest := by rw [← List.drop_drop, hrest]; rfl
    have hlen : pos + 2 ≤ text.length := by
      have := congrArg List.length hrest
      simp at this; omega
    have hstep : (a.cover 25 (.text (pos + 1) true)).supply head text =
        (_, some (sentFunction text[pos + 1]?)) := supply_function rfl
    rw [asSent_pair, show (25 :: sentFunction (some f) :: asSent rest).length + 4 + more =
        (asSent rest).length + 4 + more + 1 + 1 by simp; omega,
      supplied_succ _ (supply_control h hc hpos), supplied_succ _ hstep, hnext, Nat.min_eq_left hlen]
    rw [ih (a := (a.cover 25 (.text (pos + 1) true)).cover _ _) (pos + 2) hdrop rfl hc fun i => by rw [← hdrop, List.getElem?_drop]]
    rfl
  | case5 c f rest hne ih =>
    have hpos : text[pos]? = some c := by simpa using hget 0
    have hdrop : text.drop (pos + 1) = f :: rest := by rw [← List.drop_drop, hrest]; rfl
    rw [asSent_of_ne hne, show (c :: asSent (f :: rest)).length + 4 + more =
        (asSent (f :: rest)).length + 4 + more + 1 by simp; omega,
      supplied_succ _ (supply_plain h hc hpos hne)]
    rw [ih (a := a.cover c _) (pos + 1) hdrop rfl hc fun i => by rw [← hdrop, List.getElem?_drop]]
    rfl

theorem supply_header {n : Nat} (h : a.stage = .header n) (hn : n < 4) : a.supply head text =
    (a.cover (head.getD n 0) (.header (n + 1)), some (head.getD n 0)) := by
  simp [supply, h, hn]

theorem supply_header_last (h : a.stage = .header 4) : a.supply head text =
    (a.cover (head.getD 4 0) (.text 0 false), some (head.getD 4 0)) := by
  simp [supply, h]

theorem supply_opening (h : a.stage = .opening) :
    a.supply head text = ({ a with acc := 0, temp := none, stage := .header 0 }, some 1) := by simp [supply, h]

end Attempt

/-- Settles O23: opening and header by the stages, the text and the closing by `Attempt.supplied_of_text`. -/
theorem attemptSuppliesTheMessageInOrder : Obligations.AttemptSuppliesTheMessageInOrder := by
  refine ⟨⟨rfl, by decide, by decide, by decide, fun c h1 h2 h3 => by simp [sentFunction, h1, h2, h3]⟩,
    ⟨rfl, rfl, fun c rest h => asSent_of_ne h rest, fun f rest => asSent_pair f rest⟩,
    fun a head text more hstage hcancel hlen => ?_⟩
  match head, hlen with
  | [c0, c1, c2, c3, c4], _ =>
    have hfuel : ([c0, c1, c2, c3, c4] ++ asSent text).length + 5 + more =
        (asSent text).length + 4 + more + 1 + 1 + 1 + 1 + 1 + 1 := by simp; omega
    dsimp only
    rw [hfuel, Attempt.supplied_succ _ (Attempt.supply_opening hstage),
      Attempt.supplied_succ _ (Attempt.supply_header (n := 0) rfl (by decide)),
      Attempt.supplied_succ _ (Attempt.supply_header (n := 1) rfl (by decide)),
      Attempt.supplied_succ _ (Attempt.supply_header (n := 2) rfl (by decide)),
      Attempt.supplied_succ _ (Attempt.supply_header (n := 3) rfl (by decide)),
      Attempt.supplied_succ _ (Attempt.supply_header_last rfl),
      Attempt.supplied_of_text (a := Attempt.cover _ _ _) text 0 rfl rfl (by exact hcancel)]
    rfl

end Sys2Proof.Machine
end

section
/-! The keyer's commands and the attempts (sections 2.1, 2.5, 2.6, 3.2 to 3.6). -/

namespace Sys2Proof.Machine

open Sys2Proof

/-! ### A command that arises, and one that does not -/

theorem perform_yes {s : State} {arises : Bool} {effect : State → State} (hw : s.working = true)
    (h : arises = true) : perform s arises effect = .next (effect s) := by
  simp [perform, hw, h]

theorem perform_no {s : State} {arises : Bool} {effect : State → State} (h : arises = false) :
    perform s arises effect = .next s := by
  simp [perform, h]

/-- A command that arises answers what its effect leaves. -/
theorem answers_of_perform {c : Instr} {s : State} {arises : Bool} {effect : State → State} {P : State → Prop}
    (hexec : exec c s = perform s arises effect) (hw : s.working = true) (h : arises = true) (hP : P (effect s)) :
    Answers c s P := ⟨effect s, hexec.trans (perform_yes hw h), hP⟩

/-! ### The active record -/

theorem find?_onFirst {α : Type} {q : α → Bool} {f : α → α} (l : List α) (h : ∀ a, q a = true → q (f a) = true) :
    (onFirst q f l).find? q = (l.find? q).map f := by
  induction l with
  | nil => rfl
  | cons a l ih =>
    simp only [onFirst]
    cases hq : q a with
    | true => simp [h a hq, hq]
    | false => simpa [hq] using ih

theorem OutRecord.message_withMessage (f : Message → Message) (r : OutRecord) :
    (r.withMessage f).message = r.message.map f := by
  obtain ⟨start, length, progress, copied, body⟩ := r
  cases body <;> rfl

/-- A change of the active record that leaves it active is seen in the active record. -/
theorem State.active_onActive {s : State} {f : Message → Message}
    (h : ∀ r : OutRecord, r.isActive = true → (r.withMessage f).isActive = true) :
    (s.onActive f).active = s.active.map f := by
  simp only [State.active, State.onActive, find?_onFirst _ h]
  cases s.table.find? OutRecord.isActive with
  | none => rfl
  | some r => exact OutRecord.message_withMessage f r

/-! ### Contention and the grants -/

theorem defer_eq {own last : Code} (h : last.val ≤ 30) :
    ((defer own last : Nat) : Int) = 2 * (((own.val : Int) - last.val - 1) % 31) + 2 := by
  unfold defer
  omega

theorem State.contentionHeld_iff (s : State) : s.contentionHeld = true ↔
    s.listener.degraded = true ∨ s.receiver.lineOpen = true ∨ s.loader.standing ≠ .configured ∨
      s.listener.state = .slottedAnswers ∨ s.listener.state = .freeAnswer ∨ s.matcher.state = .due ∨
      s.matcher.state = .keying := by
  simp [State.contentionHeld, or_assoc]

theorem State.attemptInstant_of_held {s : State} (h : s.contentionHeld = true) : s.attemptInstant = none := by
  simp [State.attemptInstant, h]

theorem State.attemptInstant_eq {s : State} {m : Message} {own : Code} {change : Ticks}
    (hactive : s.active = some m) (hm : m.state = .contending) (hlevel : s.receiver.level = some .mark)
    (hdate : s.receiver.markDate = some change) (hown : s.loader.params.own = some own)
    (hheld : s.contentionHeld = false) :
    s.attemptInstant = some (max change (s.listener.phaseEnd.getD 0) + s.loader.params.quietTime +
      defer own s.listener.lastOriginator * s.loader.params.unit) := by
  simp [State.attemptInstant, State.waitOrigin, hheld, hactive, hm, hlevel, hdate, hown]

theorem exec_attemptBegin {s : State} {t : Ticks} (h : s.attemptInstant = some t) :
    exec .attemptBegin s = perform s (s.keyer.holder == .none) fun s => (s.at t).beginAttempt := by
  simp only [exec, execAttemptBegin, h]

theorem exec_answerStartInstant {s : State} {a : Answer} (hstate : s.matcher.state = .due)
    (hanswer : s.matcher.answer = some a) :
    exec .answerStartInstant s = perform s true fun s => (s.at a.start).startAnswer a := by
  simp only [exec, execAnswerStartInstant, hstate, hanswer]

/-- Settles O25: the defer by arithmetic, each grant by the branches of its command. -/
theorem attemptsAndAnswersBegin : Obligations.AttemptsAndAnswersBegin := by
  refine ⟨fun own last _ h => defer_eq h, fun a b last ha hb hl hne => ?distinct,
    fun s m own change hw hactive hm hlevel hdate hown => ⟨fun hno hfree => ?begun, fun hold => ?held⟩,
    fun s a hw hstate hanswer => ⟨fun hfree => ?keyed, fun hbusy => ?abandoned⟩⟩
  case distinct =>
    have hval : a.val ≠ b.val := fun h => hne (Fin.ext h)
    unfold defer
    omega
  case begun =>
    have hheld : s.contentionHeld = false := Bool.eq_false_iff.mpr fun h => hno (s.contentionHeld_iff.mp h)
    exact answers_of_perform (exec_attemptBegin (State.attemptInstant_eq hactive hm hlevel hdate hown hheld)) hw
      (by simp [hfree]) rfl
  case held =>
    simp only [exec, execAttemptBegin]
    split
    · rename_i t ht
      rcases hold with hold | hold
      · rw [State.attemptInstant_of_held (s.contentionHeld_iff.mpr hold)] at ht
        exact nomatch ht
      · exact perform_no (by simpa using hold)
    · exact perform_no rfl
  case keyed => exact answers_of_perform (exec_answerStartInstant hstate hanswer) hw rfl (if_pos hfree)
  case abandoned => exact answers_of_perform (exec_answerStartInstant hstate hanswer) hw rfl (if_neg hbusy)

/-! ### Units and supply -/

theorem exec_keyerUnitBoundary {s : State} {c : KeyedChar} (h : s.keyer.current = some c) :
    exec .keyerUnitBoundary s = perform s (c.unit ≤ 5) fun s' =>
      let t := c.start + (c.unit + 1) * s.loader.params.unit
      { s'.at t with keyer := s'.keyer.setUnit c (c.unit + 1) t } := by
  simp only [exec, execKeyerUnitBoundary, h]

theorem exec_keyerSupplyPoint {s : State} {c : KeyedChar} (h : s.keyer.current = some c) :
    exec .keyerSupplyPoint s = perform s (decide (5 ≤ c.unit) && c.next == .unasked) fun s =>
      (s.at (c.start + 6 * s.loader.params.unit)).supplyPoint c := by
  simp only [exec, execKeyerSupplyPoint, h]

/-- The data units key the places of the code, highest first (R25). -/
theorem keyedLevel_data (c : Code) (u : Fin 5) : keyedLevel c (u.val + 1) =
    if c.val / 2 ^ (4 - u.val) % 2 = 1 then .mark else .space := by
  have hsub : 5 - (u.val + 1) = 4 - u.val := by omega
  rw [keyedLevel, if_neg (Nat.succ_ne_zero _), if_neg (by omega), hsub, Nat.testBit_eq_decide_div_mod_eq]
  simp

/-- MESSAGE is asked for the next character of the attempt (R50). -/
theorem State.messageSupply_eq {s : State} {a : Attempt} {r : OutRecord} {m : Message}
    (ha : s.transmitter.attempt = some a) (hr : s.table.find? OutRecord.isActive = some r)
    (hm : r.body = .message m) :
    s.messageSupply =
      let out := a.supply (m.header (s.loader.params.own.getD 0))
        (if m.kind = 4 ∨ m.kind = 5 then [] else s.store.textOf r)
      ({ s with transmitter := { s.transmitter with attempt := some out.1 } }, out.2) := by
  simp only [State.messageSupply, ha, hr, hm]

/-- ANSWER is asked for the next of its characters (R84). -/
theorem State.answerSupply_eq {s : State} {a : Answer} (h : s.matcher.answer = some a) :
    s.answerSupply = ({ s with matcher := { s.matcher with answer := some { a with
      supplied := if a.supplied < a.chars.length then a.supplied + 1 else a.supplied } } },
      a.chars[a.supplied]?) := by
  simp only [State.answerSupply, h]
  split
  · rename_i hn
    have hlen := List.getElem?_eq_none_iff.mp hn
    rw [if_neg (by omega), hn, ← h]
  · rename_i c hc
    obtain ⟨hlen, -⟩ := List.getElem?_eq_some_iff.mp hc
    rw [if_pos hlen, hc]

/-- Settles O26: the levels place by place, the supply by what each holder gives. -/
theorem keyerKeysTheUnitsAndAsks : Obligations.KeyerKeysTheUnitsAndAsks := by
  refine ⟨fun c => ⟨rfl, rfl, keyedLevel_data c⟩, fun s c hw hc hunit => ?boundary,
    fun s c hw hc hunit hnext => ⟨fun a r m hholder ha hr hm => ?message, fun a hholder ha => ?answer⟩⟩
  case boundary =>
    refine answers_of_perform (exec_keyerUnitBoundary hc) hw (by simpa using hunit) ?_
    simp only [Keyer.setUnit]
    cases keyedLevel c.code (c.unit + 1) <;> rfl
  case message =>
    refine answers_of_perform (exec_keyerSupplyPoint hc) hw (by simp [hunit, hnext]) ?_
    simp only [State.supplyPoint, State.askHolder, State.at_keyer, hholder]
    rw [State.messageSupply_eq (s := s.at _) ha hr hm]
    rfl
  case answer =>
    refine answers_of_perform (exec_keyerSupplyPoint hc) hw (by simp [hunit, hnext]) ?_
    simp only [State.supplyPoint, State.askHolder, State.at_keyer, hholder]
    rw [State.answerSupply_eq (s := s.at _) ha]
    rfl

end Sys2Proof.Machine
end

section
/-! The end of a stop element, a mismatch, collisions and outcomes, and BREAK (sections 2.5, 2.6, 3.4 to 3.6). -/

namespace Sys2Proof.Machine

open Sys2Proof

/-! ### The end of a stop element -/

theorem exec_keyerStopElementEnd {s : State} {c : KeyedChar} (h : s.keyer.current = some c) :
    exec .keyerStopElementEnd s = perform s (decide (6 ≤ c.unit) && c.next != .unasked) fun s' =>
      let t := c.start + s.loader.params.charTime
      ((s'.at t).stopElementOver c.next t).settle := by
  simp only [exec, execKeyerStopElementEnd, h]

theorem State.sequenceOver_of_message {s : State} (h : s.keyer.holder = .message) :
    s.sequenceOver = ({ s with keyer := Keyer.reset } : State).messageKeyed := by
  simp only [State.sequenceOver, h]

theorem State.sequenceOver_of_answer {s : State} (h : s.keyer.holder = .answer) :
    s.sequenceOver = ({ s with keyer := Keyer.reset } : State).answerOver := by
  simp only [State.sequenceOver, h]

theorem State.answerOver_of_keying {s : State} (h : s.matcher.state = .keying) :
    s.answerOver = { s with matcher := { s.matcher with state := .idle, answer := none } } := if_pos h

theorem State.messageKeyed_cancelled {s : State} {a : Attempt} (ha : s.transmitter.attempt = some a)
    (h : a.stage = .finished true) : s.messageKeyed = s.finishMessage .cancelled .none := by
  simp only [State.messageKeyed, ha, h, if_true]

theorem State.messageKeyed_unheard {s : State} {a : Attempt} (ha : s.transmitter.attempt = some a)
    (h : a.stage ≠ .finished true) (hph : a.phase = none) : s.messageKeyed = s.collision := by
  simp only [State.messageKeyed, ha, if_neg h, hph, Option.isSome_none, Bool.false_eq_true, if_false]

theorem State.messageKeyed_heard {s : State} {a : Attempt} {ph : Phase} (ha : s.transmitter.attempt = some a)
    (h : a.stage ≠ .finished true) (hph : a.phase = some ph) :
    s.messageKeyed =
      let answering := s.onActive fun m => { m with state := .answering }
      if a.phaseOver then answering.phaseJudged else answering := by
  simp only [State.messageKeyed, ha, if_neg h, hph, Option.isSome_some, if_true]

theorem State.sequenceOver_heard {s : State} {a : Attempt} {ph : Phase} (hholder : s.keyer.holder = .message)
    (ha : s.transmitter.attempt = some a) (h : a.stage ≠ .finished true) (hph : a.phase = some ph) :
    s.sequenceOver =
      let answering := ({ s with keyer := Keyer.reset } : State).onActive fun m => { m with state := .answering }
      if a.phaseOver then answering.phaseJudged else answering :=
  (State.sequenceOver_of_message hholder).trans
    (State.messageKeyed_heard (s := { s with keyer := Keyer.reset }) ha h hph)

/-- What an ANSWERING record holds once its phase is merged (R59). -/
def State.phaseMerged (s : State) (m : Message) (ph : Phase) : State :=
  s.onActive fun x => { x with
    answers := mergeEntries (phaseEntries s.loader.params m ph s.transmitter.heard) x.answers }

theorem State.phaseJudged_settled {s : State} {m : Message} {a : Attempt} {ph : Phase} {o : OutOutcome}
    {content : Content} (hm : s.active = some m) (hstate : m.state = .answering) (ha : s.transmitter.attempt = some a)
    (hph : a.phase = some ph) (hv : judge s.loader.params m ph s.transmitter.heard = .settled o content) :
    s.phaseJudged = (s.phaseMerged m ph).finishMessage o content := by
  simp only [State.phaseJudged, hm, ha, Option.bind_some, hph, hstate, if_true, hv, State.phaseMerged]

theorem State.phaseJudged_retry {s : State} {m : Message} {a : Attempt} {ph : Phase} (hm : s.active = some m)
    (hstate : m.state = .answering) (ha : s.transmitter.attempt = some a) (hph : a.phase = some ph)
    (hv : judge s.loader.params m ph s.transmitter.heard = .retry) :
    s.phaseJudged = (s.phaseMerged m ph).contendAgain fun m => { m with retries := m.retries + 1 } := by
  simp only [State.phaseJudged, hm, ha, Option.bind_some, hph, hstate, if_true, hv, State.phaseMerged]

theorem OutRecord.withMessage_isActive {f : Message → Message} (r : OutRecord)
    (h : ∀ m : Message, (f m).state = .contending ∨ (f m).state = .sending ∨ (f m).state = .answering)
    (hr : r.isActive = true) : (r.withMessage f).isActive = true := by
  obtain ⟨start, length, progress, copied, body⟩ := r
  cases body with
  | message m =>
    have := h m
    simp only [OutRecord.withMessage, OutRecord.isActive, OutRecord.inState, Bool.or_eq_true, beq_iff_eq]
    tauto
  | text isOpen => exact hr

/-- Settles O27: the character given, and each holder's end by what its report finds. -/
theorem stopElementEndGoesOn : Obligations.StopElementEndGoesOn := by
  refine fun s c hw hc hunit => ⟨fun hnext => ?unasked, fun x hnext => ?char,
    fun a hnext hholder ha => ⟨fun hstage => ?cancelled, fun hstage hph => ?unheard, fun ph hstage hph hover => ?heard,
      fun ph m hstage hph hover hm => ?judged⟩, fun hnext hholder hstate => ?answer⟩
  case unasked =>
    rw [exec_keyerStopElementEnd hc]
    exact perform_no (by simp [hnext])
  case char => exact answers_of_perform (exec_keyerStopElementEnd hc) hw (by simp [hunit, hnext]) (by rw [hnext]; rfl)
  all_goals
    refine answers_of_perform (exec_keyerStopElementEnd hc) hw (by simp [hunit, hnext]) ?_
    rw [hnext]
    refine congrArg State.settle ?_
    simp only [State.stopElementOver]
  case cancelled =>
    refine (State.sequenceOver_of_message (s := s.at _) hholder).trans ?_
    exact State.messageKeyed_cancelled ha hstage
  case unheard =>
    refine (State.sequenceOver_of_message (s := s.at _) hholder).trans ?_
    exact State.messageKeyed_unheard ha hstage hph
  case heard =>
    refine (State.sequenceOver_heard (s := s.at _) hholder ha hstage hph).trans ?_
    rw [hover]
    rfl
  case judged =>
    refine (State.sequenceOver_heard (s := s.at _) hholder ha hstage hph).trans ?_
    rw [hover]
    refine (if_pos rfl).trans ?_
    have hstate : m.state = .answering := by
      have hactive := State.active_onActive (s := s) (f := fun m => { m with state := .answering })
        fun r => r.withMessage_isActive fun m => .inr (.inr rfl)
      have hm' : s.active.map (fun m => { m with state := .answering }) = some m := hactive.symm.trans hm
      obtain ⟨x, -, rfl⟩ := Option.map_eq_some_iff.mp hm'
      rfl
    split
    · rename_i o content hv
      exact State.phaseJudged_settled hm hstate ha hph hv
    · rename_i hv
      exact State.phaseJudged_retry hm hstate ha hph hv
  case answer =>
    refine (State.sequenceOver_of_answer (s := s.at _) hholder).trans ?_
    exact State.answerOver_of_keying hstate

/-! ### A mismatch -/

theorem exec_echoMismatch {s : State} {c : KeyedChar} (h : s.keyer.current = some c) (u : Ticks) :
    exec (.echoMismatch u) s = perform s (c.comparesAt s.loader.params u && s.receiver.level == some .space) fun s =>
      ((s.at u).mismatch u).settle := by
  simp only [exec, execEchoMismatch, h]

/-- R40's compare points. -/
theorem KeyedChar.comparesAt_iff (p : Params) (c : KeyedChar) (u : Ticks) : c.comparesAt p u = true ↔
    (1 ≤ c.unit ∧ c.unit ≤ 5 ∧ keyedLevel c.code c.unit = .mark ∧ u = c.start + c.unit * p.unit + p.unit / 2) ∨
      (6 ≤ c.unit ∧ (u = c.start + 6 * p.unit + p.unit / 2 ∨ u + p.unit / 2 = c.start + p.charTime)) := by
  unfold KeyedChar.comparesAt
  split
  · simp [*]
  · split
    · have h1 : 1 ≤ c.unit := by omega
      have h6 : ¬ 6 ≤ c.unit := by omega
      simp [*]
    · have h6 : 6 ≤ c.unit := by omega
      simp [*]

theorem State.mismatch_of_message {s : State} (h : s.keyer.holder = .message) (u : Ticks) :
    s.mismatch u = ({ s with keyer := Keyer.reset } : State).messageMismatch u := by
  simp only [State.mismatch, h]

theorem State.mismatch_of_answer {s : State} (h : s.keyer.holder = .answer) (u : Ticks) :
    s.mismatch u = ({ s with keyer := Keyer.reset } : State).answerOver := by
  simp only [State.mismatch, h]

theorem State.messageMismatch_eq {s : State} {a : Attempt} (ha : s.transmitter.attempt = some a) (u : Ticks) :
    s.messageMismatch u =
      if a.cancel then s.finishMessage .cancelled .none
      else { s with transmitter := { s.transmitter with attempt := some { a with
        stopped := some { comparePoint := u, spaceDate := s.receiver.spaceDate } } } } := by
  simp only [State.messageMismatch, ha]

/-- Settles O28: the compare points by `KeyedChar.comparesAt_iff`, the effect by the holder. -/
theorem mismatchStopsTheKeyer : Obligations.MismatchStopsTheKeyer := by
  refine fun s c u hw hc => ⟨fun hno => ?nothing, fun hcompared hlevel =>
    ⟨fun a hholder ha => ?message, fun hholder hstate => ?answer⟩⟩
  case nothing =>
    rw [exec_echoMismatch hc, ← KeyedChar.comparesAt_iff] at *
    refine perform_no (Bool.eq_false_iff.mpr fun h => ?_)
    simp only [Bool.and_eq_true, beq_iff_eq] at h
    exact hno.elim (fun hl => hl h.2) (fun hp => hp h.1)
  all_goals
    have hpoint := (KeyedChar.comparesAt_iff _ c u).mpr hcompared
    refine answers_of_perform (exec_echoMismatch hc u) hw (by simp [hpoint, hlevel]) (congrArg State.settle ?_)
  case message =>
    exact (State.mismatch_of_message (s := s.at _) hholder u).trans
      (State.messageMismatch_eq (s := { s.at u with keyer := Keyer.reset }) ha u)
  case answer =>
    exact (State.mismatch_of_answer (s := s.at _) hholder u).trans
      (State.answerOver_of_keying (s := { s.at u with keyer := Keyer.reset }) hstate)

/-! ### Collisions and outcomes -/

theorem State.finishMessage_eq {s : State} {m : Message} (hm : s.active = some m) (o : OutOutcome) (content : Content) :
    s.finishMessage o content =
      ((({ s.onActive (fun m => { m with state := .done o, content := content }) with
          log := s.log.finishOut m.logNumber o m.answers content m.collisions m.retries
          transmitter := { s.transmitter with attempt := none, heard := [] } } : State).post
        (.delivery m.logNumber)).activate).giveBack := by
  simp only [State.finishMessage, hm]
  rfl

theorem State.activate_eq (s : State) : s.activate = { s with
    table := if s.table.any OutRecord.isActive then s.table
      else onFirst (OutRecord.inState .ready) (OutRecord.withMessage fun m => { m with state := .contending }) s.table } := by
  unfold State.activate
  split <;> rfl

theorem State.post_eq (s : State) (r : Request) : s.post r = { s with mech := { s.mech with queue := { s.mech.queue with
    requests := if s.mech.queue.requests.length < 4 then s.mech.queue.requests ++ [r]
      else s.mech.queue.requests } } } := by
  simp only [State.post, State.onQueue, State.onMech, CopyQueue.post]
  split <;> rename_i h <;> simp only [Config.requestCapacity] at h <;> simp [h]

/-- Settles O29: the collision by its count, the outcome by what each of its steps sets. -/
theorem collisionsAndOutcomesSettleTheRecord : Obligations.CollisionsAndOutcomesSettleTheRecord := by
  refine fun s m hm => ⟨fun h => ?counted, fun h => ?eighth, fun o content => ?outcome⟩
  case counted =>
    simp only [State.collision, hm, if_neg (Nat.not_le.mpr h)]
    rfl
  case eighth => simp only [State.collision, hm, if_pos h]
  case outcome =>
    rw [State.finishMessage_eq hm, State.activate_eq, State.post_eq]
    rfl

/-! ### BREAK -/

theorem State.breakDown_of_unattended {s : State} (h : s.mech.motor.mode = .unattended) : s.breakDown = s :=
  if_neg (by simp [h])

theorem State.breakDown_of_held {s : State} (h : s.keyer.holder = .breakKey) : s.breakDown = s := if_neg (by simp [h])

/-- The keyer taken by BREAK: a space already keyed goes on being measured from its own date (assumption 39). -/
def State.breakTaken (s : State) : State :=
  { s with keyer := { holder := .breakKey, current := none, spaceSince := some (s.keyer.spaceSince.getD s.now) } }

theorem State.breakDown_of_free {s : State} (hm : s.mech.motor.mode = .attended) (h : s.keyer.holder = .none) :
    s.breakDown = s.breakTaken := by
  rw [State.breakDown, if_pos ⟨hm, by simp [h]⟩]
  simp only [h, State.breakTaken]

theorem State.breakDown_of_message {s : State} (hm : s.mech.motor.mode = .attended) (h : s.keyer.holder = .message) :
    s.breakDown = s.breakTaken.interrupt := by
  rw [State.breakDown, if_pos ⟨hm, by simp [h]⟩]
  simp only [h, State.breakTaken]

theorem State.breakDown_of_answer {s : State} (hm : s.mech.motor.mode = .attended) (h : s.keyer.holder = .answer) :
    s.breakDown =
      { s.breakTaken with matcher := { s.matcher with state := .idle, answer := none } } := by
  rw [State.breakDown, if_pos ⟨hm, by simp [h]⟩]
  simp only [h, State.breakTaken]

theorem State.keyGoesDown_of_unattended {s : State} (h : s.mech.motor.mode = .unattended) (k : Key) :
    s.keyGoesDown k = { s with keyboard := s.keyboard.setKey k true } := if_neg (by simp [h])

theorem State.keyGoesDown_of_attended {s : State} {k : Key} (h : s.mech.motor.mode = .attended) (hk : k ≠ .clear) :
    s.keyGoesDown k = { s with
      keyboard := s.keyboard.setKey k true
      mech := { s.mech with motor := s.mech.motor.keyEvent s.loader.params s.now } } := if_pos ⟨h, hk⟩

theorem Motor.keyEvent_mode (p : Params) (now : Ticks) (d : Motor) : (d.keyEvent p now).mode = d.mode :=
  (Motor.restartIdle_inputs p now _).1.trans (Motor.startEvent_inputs p now d).1

theorem exec_breakDown (s : State) (u : Ticks) : exec (.breakDown u) s =
    perform s (!s.keyboard.isDown .brk) fun s => (s.at u).keyDownEvent .brk := rfl

theorem exec_breakUp (s : State) (u : Ticks) : exec (.breakUp u) s =
    perform s (s.keyboard.isDown .brk) fun s => (s.at u).keyUpEvent .brk := rfl

theorem exec_breakLimit {s : State} {since : Ticks} (h : s.keyer.spaceSince = some since) :
    exec .breakLimit s = perform s true fun s =>
      ((s.at (since + ms (10 * s.loader.params.breakLimit))).spaceLimit).settle := by
  simp only [exec, execBreakLimit, h]

theorem State.breakUp_eq (s : State) :
    s.breakUp = { s with keyer := if s.keyer.holder = .breakKey then Keyer.reset else s.keyer } := by
  unfold State.breakUp
  split <;> rfl

/-- Settles O30: BREAK down by mode and holder, its release and its limit. -/
theorem breakTakesTheLine : Obligations.BreakTakesTheLine := by
  refine ⟨fun s u hw hup => ⟨fun hmode => ?unattended, fun hmode h => ?already, fun hmode h => ?free,
    fun hmode h => ?message, fun hmode h => ?answer⟩, fun s u hw hdown => ?released,
    fun s since hw hsince hholder => ?limit⟩
  case unattended =>
    refine answers_of_perform (exec_breakDown s u) hw (by simp [hup]) (congrArg State.settle ?_)
    rw [State.keyGoesDown_of_unattended (s := s.at u) hmode]
    exact State.breakDown_of_unattended hmode
  case released =>
    refine answers_of_perform (exec_breakUp s u) hw hdown (congrArg State.settle ?_)
    exact State.breakUp_eq _
  case limit =>
    refine answers_of_perform (exec_breakLimit hsince) hw rfl (congrArg State.settle ?_)
    simp only [State.spaceLimit, State.at_keyer, hholder]
    rfl
  all_goals
    refine answers_of_perform (exec_breakDown s u) hw (by simp [hup]) (congrArg State.settle ?_)
    rw [State.keyGoesDown_of_attended (s := s.at u) hmode (by decide)]
    have hmode' := (Motor.keyEvent_mode (s.at u).loader.params (s.at u).now (s.at u).mech.motor).trans hmode
  case already => exact State.breakDown_of_held h
  case free => exact State.breakDown_of_free hmode' h
  case message =>
    exact State.breakDown_of_message (s := { s.at u with keyboard := _, mech := { s.mech with motor := _ } }) hmode' h
  case answer => exact State.breakDown_of_answer hmode' h

end Sys2Proof.Machine
end

section
/-! Level changes and the assembler (sections 2.3, 2.6). -/

namespace Sys2Proof.Machine

open Sys2Proof

/-! ### What following a message leaves unchanged -/

/-- Only the mechanism, the call matcher, the listener and the log differ. -/
def OnlyHeard (s t : State) : Prop := ∃ m x l g, t = { s with mech := m, matcher := x, listener := l, log := g }

theorem OnlyHeard.refl (s : State) : OnlyHeard s s := ⟨s.mech, s.matcher, s.listener, s.log, rfl⟩

theorem OnlyHeard.trans {s t u : State} (h : OnlyHeard s t) (g : OnlyHeard t u) : OnlyHeard s u := by
  obtain ⟨m, x, l, k, rfl⟩ := h
  obtain ⟨m', x', l', k', rfl⟩ := g
  exact ⟨m', x', l', k', rfl⟩

theorem OnlyRun.heard {s t : State} (h : OnlyRun s t) : OnlyHeard s t := by
  obtain ⟨m, x, rfl⟩ := h
  exact ⟨m, x, s.listener, s.log, rfl⟩

theorem State.onListener_heard (s : State) (f : Listener → Listener) : OnlyHeard s (s.onListener f) :=
  ⟨s.mech, s.matcher, f s.listener, s.log, rfl⟩

theorem State.countError_heard (s : State) : OnlyHeard s s.countError := s.onListener_heard _

theorem State.matchText_heard (s : State) (c : RxChar) : OnlyHeard s (s.matchText c) := by
  refine OnlyRun.heard ?_
  unfold State.matchText
  split
  · have h := s.onIncoming_run fun i => { i with chars := addUpTo 65535 i.chars 1 }
    split
    · exact h.trans (State.receiveWrite_run _ _)
    · exact h.trans (State.onIncoming_run _ _)
    · exact h
  · exact .refl s

theorem State.finishIncoming_heard (s : State) (o : InOutcome) : OnlyHeard s (s.finishIncoming o) := by
  unfold State.finishIncoming
  split
  · exact .refl s
  · exact ⟨_, _, _, _, rfl⟩

theorem State.takeCall_heard (s : State) (h : Header) : OnlyHeard s (s.takeCall h) := by
  unfold State.takeCall
  dsimp only
  split
  · exact OnlyHeard.trans ⟨_, _, _, _, rfl⟩ (State.openReceiveRun_run _).heard
  · exact ⟨_, _, _, _, rfl⟩

theorem State.matchHeader_heard (s : State) (h : Header) (valid : Bool) : OnlyHeard s (s.matchHeader h valid) := by
  unfold State.matchHeader
  split
  · exact s.takeCall_heard h
  · exact .refl s

theorem State.endCalled_heard (s : State) (i : Incoming) (good : Bool) (ph : Phase) :
    OnlyHeard s (s.endCalled i good ph) := by
  unfold State.endCalled
  exact (((s.matcher_run _).trans (State.closeReceiveRun_run _ _)).heard.trans (State.finishIncoming_heard _ _)).trans
    ⟨_, _, _, _, rfl⟩

theorem State.matchEnd_heard (s : State) (good : Bool) (ph : Phase) : OnlyHeard s (s.matchEnd good ph) := by
  unfold State.matchEnd
  split
  · exact s.endCalled_heard _ _ _
  · exact .refl s

theorem State.matchBroken_heard (s : State) (d : Nat) (o : InOutcome) : OnlyHeard s (s.matchBroken d o) := by
  unfold State.matchBroken
  split
  · exact ((State.closeReceiveRun_run _ _).heard.trans (State.finishIncoming_heard _ _)).trans ⟨_, _, _, _, rfl⟩
  · exact .refl s

theorem State.messageOver_heard (s : State) (d : Nat) (o : InOutcome) (next : ListenerState) :
    OnlyHeard s (s.messageOver d o next) := by
  unfold State.messageOver
  refine OnlyHeard.trans ?_ (State.onListener_heard _ _)
  refine OnlyHeard.trans ?_ (State.matchBroken_heard _ _ _)
  split
  · exact (State.matchText_heard _ _).trans (State.matchText_heard _ _)
  · exact .refl s

theorem State.newCall_heard (h c : RxChar) (s : State) : OnlyHeard s (State.newCall h c s) :=
  ((s.onListener_heard _).trans (State.messageOver_heard _ _ _ _)).trans (State.onListener_heard _ _)

theorem State.headerTaken_heard (s : State) (h : Header) : OnlyHeard s (s.headerTaken h) := by
  unfold State.headerTaken
  dsimp only
  split
  · exact (s.onListener_heard _).trans (State.matchHeader_heard _ _ _)
  · exact ((s.onListener_heard _).trans (State.matchHeader_heard _ _ _)).trans (State.countError_heard _)

theorem State.takeField_heard (s : State) (c : RxChar) : OnlyHeard s (s.takeField c) := by
  unfold State.takeField
  dsimp only
  split
  · exact (s.onListener_heard _).trans (State.headerTaken_heard _ _)
  · exact s.onListener_heard _

theorem State.textCharacter_heard (s : State) (c : RxChar) : OnlyHeard s (s.textCharacter c) :=
  (s.onListener_heard _).trans (State.matchText_heard _ _)

theorem State.takeText_heard (s : State) (c : RxChar) : OnlyHeard s (s.takeText c) := by
  unfold State.takeText
  split
  · split
    · exact s.onListener_heard _
    · exact s.textCharacter_heard c
  · refine OnlyHeard.trans (s.onListener_heard fun l => { l with held := none }) ?_
    split
    · exact State.newCall_heard _ _ _
    · split
      · exact State.onListener_heard _ _
      · split
        · exact State.messageOver_heard _ _ _ _
        · exact (State.textCharacter_heard _ _).trans (State.textCharacter_heard _ _)

theorem State.takeHeader_heard (s : State) (c : RxChar) : OnlyHeard s (s.takeHeader c) := by
  unfold State.takeHeader
  split
  · split
    · exact s.onListener_heard _
    · exact s.takeField_heard c
  · split
    · exact State.newCall_heard _ _ _
    · dsimp only
      split
      · exact (s.takeField_heard _).trans (State.takeText_heard _ _)
      · exact (s.takeField_heard _).trans (State.takeField_heard _ _)

theorem State.takeIdle_heard (s : State) (c : RxChar) : OnlyHeard s (s.takeIdle c) := by
  unfold State.takeIdle
  split
  · split
    · exact s.onListener_heard _
    · exact .refl s
  · split <;> exact s.onListener_heard _

/-- At the second check character the phase is reported to the transmitter once all else is done. -/
theorem State.checkTaken_heard (s : State) (a b : RxChar) :
    ∃ u ph, OnlyHeard s u ∧ s.checkTaken a b = u.phaseReported ph := by
  unfold State.checkTaken
  refine ⟨_, _, ?_, rfl⟩
  refine OnlyHeard.trans ?_ (State.onListener_heard _ _)
  split
  · split
    · exact ((s.onListener_heard _).trans (State.matchEnd_heard _ _ _)).trans (State.onListener_heard _ _)
    · exact (s.onListener_heard _).trans (State.matchEnd_heard _ _ _)
  · exact ((s.onListener_heard _).trans (State.matchEnd_heard _ _ _)).trans (State.countError_heard _)

/-- What the listener makes of a character: the transmitter is told at most of the character or of a phase. -/
inductive HeardAs (s : State) (c : RxChar) (t : State) : Prop where
  | only : OnlyHeard s t → HeardAs s c t
  | char (u : State) : OnlyHeard s u → t = u.phaseChar c → HeardAs s c t
  | phase (u : State) (ph : Phase) : OnlyHeard s u → t = u.phaseReported ph → HeardAs s c t

theorem State.takeCheck_heard (s : State) (c : RxChar) : HeardAs s c (s.takeCheck c) := by
  unfold State.takeCheck
  split
  · obtain ⟨u, ph, hu, h⟩ := s.checkTaken_heard _ c
    exact .phase u ph hu h
  · split
    · exact .only (s.onListener_heard _)
    · exact .only (s.onListener_heard _)
  · split
    · exact .only (State.newCall_heard _ _ _)
    · obtain ⟨u, ph, hu, h⟩ := s.checkTaken_heard _ c
      exact .phase u ph hu h

theorem State.takeChar_heard (s : State) (c : RxChar) : HeardAs s c (s.takeChar c) := by
  unfold State.takeChar
  split
  · exact .char s (.refl s) rfl
  · split
    · exact .only (.refl s)
    · exact .only (s.takeIdle_heard c)
    · exact .only (s.takeHeader_heard c)
    · exact .only (s.takeText_heard c)
    · exact s.takeCheck_heard c
    · exact .char s (.refl s) rfl
    · exact .char s (.refl s) rfl

theorem HeardAs.behind {s t u : State} {c : RxChar} (hs : OnlyHeard s t) (h : HeardAs t c u) : HeardAs s c u := by
  cases h with
  | only h => exact .only (hs.trans h)
  | char u h heq => exact .char u (hs.trans h) heq
  | phase u ph h heq => exact .phase u ph (hs.trans h) heq

theorem State.listen_heard (s : State) (c : RxChar) : HeardAs s c (s.listen c) := by
  unfold State.listen
  split
  · exact .only (.refl s)
  · refine HeardAs.behind ?_ (State.takeChar_heard _ c)
    split
    · exact s.countError_heard
    · exact .refl s

theorem OnlyHeard.transmitter {s t : State} (h : OnlyHeard s t) : t.transmitter = s.transmitter := by
  obtain ⟨m, x, l, g, rfl⟩ := h
  rfl

/-- Without an attempt the transmitter is told nothing. -/
theorem State.listen_attempt_none {s : State} (h : s.transmitter.attempt = none) (c : RxChar) :
    (s.listen c).transmitter.attempt = none := by
  have hu {u : State} (hu : OnlyHeard s u) : u.transmitter.attempt = none := by rw [hu.transmitter, h]
  cases s.listen_heard c with
  | only ho => exact hu ho
  | char u ho heq => rw [heq, State.phaseChar, hu ho]; exact hu ho
  | phase u ph ho heq => rw [heq, State.phaseReported, hu ho]; exact hu ho

/-! ### Level changes -/

theorem exec_filteredLevelChange (s : State) (count : Nat) (date : Ticks) : exec (.filteredLevelChange count date) s =
    perform s (decide (1 ≤ count) && s.receiver.nextSample s.loader.params date) fun s' =>
      if s.loader.params.glitch ≤ count then
        ((s'.runTaken count date).at (date + (s.loader.params.glitch - 1) * s.loader.params.sample)).levelChanged date
      else s'.runTaken count date := rfl

theorem Receiver.nextSample_iff (p : Params) (r : Receiver) (date : Ticks) : r.nextSample p date = true ↔
    ∃ last, r.sampled = some last ∧ last + p.unit / 8 ≤ date ∧ (date - last) % (p.unit / 8) = 0 := by
  unfold Receiver.nextSample
  split
  · simp only [*, Params.sample, Bool.and_eq_true, beq_iff_eq, Option.some.injEq, exists_eq_left']
    exact and_congr_left' decide_eq_true_iff
  · simp [*]

theorem State.runTaken_long {s : State} {count : Nat} (date : Ticks) (h : s.loader.params.glitch ≤ count) :
    s.runTaken count date = { s with receiver := { s.receiver with
      sampled := some (date + (count - 1) * s.loader.params.sample) } } := by
  simp only [State.runTaken, if_pos h]

theorem State.runTaken_short {s : State} {count : Nat} (date : Ticks) (h : ¬ s.loader.params.glitch ≤ count) :
    s.runTaken count date = { s with receiver := { s.receiver with
      sampled := some (date + count * s.loader.params.sample) } } := by
  simp only [State.runTaken, if_neg h]

theorem State.levelChanged_of_mark {s : State} (date : Ticks) (h : s.receiver.level = some .mark) :
    s.levelChanged date = s.toSpace date := by
  simp only [State.levelChanged, h]

theorem State.levelChanged_of_space {s : State} (date : Ticks) (h : s.receiver.level = some .space) :
    s.levelChanged date = s.toMark date := by
  simp only [State.levelChanged, h]

/-- The receiver at a confirmed change to mark (R26, R31). -/
def State.marked (s : State) (date : Ticks) : State :=
  { s with receiver := { s.receiver with
    level := some .mark, markDate := some date, quietReported := false, pauseRef := date } }

theorem State.toMark_of_withholding {s : State} {start : Ticks} {paused : Bool} {code : Code} (date : Ticks)
    (h : s.receiver.assembler = .withholding start paused code) :
    s.toMark date = ((State.listen { s.marked date with receiver := { (s.marked date).receiver with assembler := .empty } }
      { code := code, damaged := true, start := start
        stop := max (start + s.loader.params.charTime) date, paused := paused }).spaceEnded
          s.receiver.spaceDate).settle := by
  simp only [State.toMark, h, State.marked]

theorem State.toMark_of_not_withholding {s : State} (date : Ticks)
    (h : ∀ start paused code, s.receiver.assembler ≠ .withholding start paused code) :
    s.toMark date = ((s.marked date).spaceEnded s.receiver.spaceDate).settle := by
  cases ha : s.receiver.assembler with
  | withholding start paused code => exact absurd ha (h start paused code)
  | empty => simp only [State.toMark, State.marked, ha]
  | assembling => simp only [State.toMark, State.marked, ha]

theorem State.spaceEnded_of_none {s : State} (h : s.transmitter.attempt.bind Attempt.stopped = none)
    (date : Option Ticks) : s.spaceEnded date = s := by
  simp only [State.spaceEnded, h]

theorem State.spaceEnded_of_some {s : State} {x : Mismatch} (h : s.transmitter.attempt.bind Attempt.stopped = some x)
    (date : Option Ticks) : s.spaceEnded date = if x.spaceDate = date then s.collision else s := by
  simp only [State.spaceEnded, h]

theorem State.toSpace_eq (s : State) (date : Ticks) : s.toSpace date = { s with receiver := { s.receiver with
    level := some .space, spaceDate := some date, breakReported := false, openReported := false
    assembler :=
      if s.receiver.assembler = .empty ∧ s.listener.state ≠ .quietWait then
        .assembling date
          (decide (s.loader.params.stopElement + 2 * s.loader.params.unit ≤ date - s.receiver.pauseRef)) false []
      else s.receiver.assembler } } := by
  simp [State.toSpace, State.hunting, State.pausedStart]

/-- Settles O32: the sample grid, and the change to each level by its own equation. -/
theorem levelChangesAreConfirmedAndDated : Obligations.LevelChangesAreConfirmedAndDated := by
  refine fun s count date hw => ⟨fun hno => ?nothing, fun hnext h1 hshort => ?short,
    fun hnext h1 hlong hlevel => ?space, fun hnext h1 hlong hlevel =>
      ⟨fun start paused code hheld => ⟨fun hattempt => ?noAttempt, ?withheld⟩, fun hheld =>
        ⟨fun hstop => ?notStopped, fun x hstop => ?stopped⟩⟩⟩
  case nothing =>
    rw [exec_filteredLevelChange]
    refine perform_no (Bool.eq_false_iff.mpr fun h => ?_)
    rw [Bool.and_eq_true, Receiver.nextSample_iff] at h
    obtain ⟨hpos, hnext⟩ := h
    exact hno.elim (fun h0 => by simp [h0] at hpos) fun hn => hn hnext
  all_goals
    have harises : (decide (1 ≤ count) && s.receiver.nextSample s.loader.params date) = true := by
      rw [Bool.and_eq_true, Receiver.nextSample_iff]
      exact ⟨decide_eq_true h1, hnext⟩
    refine answers_of_perform (exec_filteredLevelChange s count date) hw harises ?_
  case short => exact (if_neg (Nat.not_le.mpr hshort)).trans (State.runTaken_short date (Nat.not_le.mpr hshort))
  all_goals
    refine (if_pos hlong).trans ?_
    rw [State.runTaken_long date hlong]
  case space => exact (State.levelChanged_of_mark date (by exact hlevel)).trans (State.toSpace_eq _ date)
  case noAttempt =>
    refine (State.levelChanged_of_space date (by exact hlevel)).trans ((State.toMark_of_withholding (start := start) (paused := paused) (code := code) date (by exact hheld)).trans ?_)
    rw [State.spaceEnded_of_none]
    · rfl
    · rw [State.listen_attempt_none]
      · rfl
      · exact hattempt
  case withheld => exact (State.levelChanged_of_space date (by exact hlevel)).trans (State.toMark_of_withholding (start := start) (paused := paused) (code := code) date (by exact hheld))
  case notStopped =>
    refine (State.levelChanged_of_space date (by exact hlevel)).trans ((State.toMark_of_not_withholding date (by exact hheld)).trans ?_)
    rw [State.spaceEnded_of_none (by exact hstop)]
    rfl
  case stopped =>
    refine (State.levelChanged_of_space date (by exact hlevel)).trans ((State.toMark_of_not_withholding date (by exact hheld)).trans ?_)
    rw [State.spaceEnded_of_some (by exact hstop)]
    rfl

/-! ### The assembler -/

theorem exec_startCentreSample {s : State} {start : Ticks} {paused : Bool} {bits : List Bool}
    (h : s.receiver.assembler = .assembling start paused false bits) :
    exec .startCentreSample s = perform s true fun s =>
      (s.at (start + s.loader.params.unit / 2)).startCentre start paused := by
  simp only [exec, execStartCentreSample, h]

theorem exec_dataUnitSample {s : State} {start : Ticks} {paused : Bool} {bits : List Bool}
    (h : s.receiver.assembler = .assembling start paused true bits) :
    exec .dataUnitSample s = perform s (bits.length < 5) fun s =>
      (s.at (start + (bits.length + 1) * s.loader.params.unit + s.loader.params.unit / 2)).dataReading
        start paused bits := by
  simp only [exec, execDataUnitSample, h]

theorem exec_stopSample {s : State} {start : Ticks} {paused : Bool} {bits : List Bool}
    (h : s.receiver.assembler = .assembling start paused true bits) :
    exec .stopSample s = perform s (bits.length == 5) fun s =>
      (s.at (start + 6 * s.loader.params.unit + s.loader.params.unit / 2)).stopReading start paused bits := by
  simp only [exec, execStopSample, h]

/-- Settles O33, sample by sample. -/
theorem assemblerReadsTheUnits : Obligations.AssemblerReadsTheUnits := by
  refine ⟨fun s start paused bits hw h => ⟨fun hlevel => ?confirmed, fun hlevel => ?discarded⟩,
    fun s start paused bits hw h => ⟨fun hlen => ?data, fun hlen hlevel => ?stop⟩, ?value⟩
  case confirmed =>
    refine answers_of_perform (exec_startCentreSample h) hw rfl ((if_pos hlevel).trans ?_)
    simp only [State.startsInPhase, Params.slot, Bool.decide_and, State.at_listener]
    rfl
  case discarded => exact answers_of_perform (exec_startCentreSample h) hw rfl (if_neg hlevel)
  case data =>
    refine answers_of_perform (exec_dataUnitSample h) hw (by simpa using hlen) ?_
    rw [← beq_eq_decide]
    rfl
  case stop => exact answers_of_perform (exec_stopSample h) hw (by simp [hlen]) (if_neg hlevel)
  case value => decide

end Sys2Proof.Machine
end

section
/-! The listener and a character in each of its states (section 1.4). -/

namespace Sys2Proof.Machine

open Sys2Proof

/-! ### The call matcher does not look at the listener while a header is taken -/

/-- The state with another listener. -/
def State.withListener (s : State) (l : Listener) : State := { s with listener := l }

theorem State.withListener_ite (p : Prop) [Decidable p] (s t : State) (l : Listener) :
    (if p then s else t).withListener l = if p then s.withListener l else t.withListener l :=
  apply_ite (State.withListener · l) p s t

theorem State.writeGap_withListener (s : State) (l : Listener) :
    (s.withListener l).writeGap = s.writeGap.withListener l := by
  unfold State.writeGap
  cases hi : s.matcher.incoming with
  | none => simp only [State.withListener, hi]
  | some i =>
    have hi' : (s.withListener l).matcher.incoming = some i := hi
    simp only [hi', State.withListener_ite]
    rfl

theorem State.receiveWrite_withListener (s : State) (l : Listener) (e : Entry) :
    (s.withListener l).receiveWrite e = (s.receiveWrite e).withListener l := by
  simp only [State.receiveWrite, State.writeGap_withListener, State.withListener_ite]
  rfl

theorem State.receiveWrites_withListener (es : List Entry) (s : State) (l : Listener) :
    (s.withListener l).receiveWrites es = (s.receiveWrites es).withListener l := by
  induction es generalizing s with
  | nil => rfl
  | cons e es ih =>
    simp only [State.receiveWrites, List.foldl_cons, State.receiveWrite_withListener] at ih ⊢
    exact ih _

theorem State.suspendLocalRun_withListener (s : State) (l : Listener) :
    (s.withListener l).suspendLocalRun = s.suspendLocalRun.withListener l := by
  simp only [State.suspendLocalRun, State.withListener_ite]
  rfl

theorem State.openReceiveRun_withListener (s : State) (l : Listener) :
    (s.withListener l).openReceiveRun = s.openReceiveRun.withListener l := by
  simp only [State.openReceiveRun, State.suspendLocalRun_withListener, ← State.receiveWrites_withListener]
  rfl

theorem State.takeCall_withListener (s : State) (l : Listener) (h : Header) :
    (s.withListener l).takeCall h = (s.takeCall h).withListener l := by
  simp only [State.takeCall, State.withListener_ite, ← State.openReceiveRun_withListener]
  rfl

theorem State.matchHeader_withListener (s : State) (l : Listener) (h : Header) (valid : Bool) :
    (s.withListener l).matchHeader h valid = (s.matchHeader h valid).withListener l := by
  simp only [State.matchHeader, State.withListener_ite, State.takeCall_withListener]
  rfl

/-! ### The character's damage is counted first (R23) -/

/-- The listener once a character's damage has been counted. -/
def Listener.counted (threshold : Nat) (c : RxChar) (l : Listener) : Listener :=
  if c.damaged = true then { l with
    errors := min 63 (l.errors + 1)
    degraded := l.degraded || decide (threshold < min 63 (l.errors + 1)) }
  else l

theorem Listener.counted_state (threshold : Nat) (c : RxChar) (l : Listener) :
    (l.counted threshold c).state = l.state := by
  unfold Listener.counted
  split <;> rfl

theorem Listener.counted_held (threshold : Nat) (c : RxChar) (l : Listener) :
    (l.counted threshold c).held = l.held := by
  unfold Listener.counted
  split <;> rfl

theorem Listener.counted_check (threshold : Nat) (c : RxChar) (l : Listener) :
    (l.counted threshold c).check = l.check := by
  unfold Listener.counted
  split <;> rfl

theorem Listener.counted_fields (threshold : Nat) (c : RxChar) (l : Listener) :
    (l.counted threshold c).fields = l.fields := by
  unfold Listener.counted
  split <;> rfl

theorem State.listen_quietWait {s : State} (h : s.listener.state = .quietWait) (c : RxChar) : s.listen c = s := if_pos h

/-- A character is taken by the listener that has counted its damage. -/
theorem State.listen_eq {s : State} (h : s.listener.state ≠ .quietWait) (c : RxChar) :
    s.listen c = (s.withListener (s.listener.counted s.loader.params.errorThreshold c)).takeChar c := by
  rw [State.listen, if_neg h]
  unfold Listener.counted
  split <;> rfl

theorem Listener.isLate_iff (l : Listener) (c : RxChar) : l.isLate c = true ↔
    l.state = .idle ∧ ∃ e, l.phaseEnd = some e ∧ c.start < e := by
  simp [Listener.isLate, Option.any_eq_true]

theorem Listener.isLate_of_ne_idle {l : Listener} (h : l.state ≠ .idle) (c : RxChar) : l.isLate c = false := by
  simp [Listener.isLate, h]

theorem State.takeChar_late {s : State} {c : RxChar} (h : s.listener.isLate c = true) : s.takeChar c = s.phaseChar c :=
  if_pos h

theorem State.takeChar_idle {s : State} {c : RxChar} (hs : s.listener.state = .idle) (h : s.listener.isLate c = false) :
    s.takeChar c = s.takeIdle c := by
  simp only [State.takeChar, h, hs, Bool.false_eq_true, if_false]

theorem State.takeChar_header {s : State} (hs : s.listener.state = .header) (c : RxChar) :
    s.takeChar c = s.takeHeader c := by
  simp only [State.takeChar, Listener.isLate_of_ne_idle (l := s.listener) (by simp [hs]) c, hs, Bool.false_eq_true, if_false]

theorem State.takeChar_text {s : State} (hs : s.listener.state = .text) (c : RxChar) : s.takeChar c = s.takeText c := by
  simp only [State.takeChar, Listener.isLate_of_ne_idle (l := s.listener) (by simp [hs]) c, hs, Bool.false_eq_true, if_false]

theorem State.takeChar_check {s : State} (hs : s.listener.state = .check) (c : RxChar) : s.takeChar c = s.takeCheck c := by
  simp only [State.takeChar, Listener.isLate_of_ne_idle (l := s.listener) (by simp [hs]) c, hs, Bool.false_eq_true, if_false]

theorem State.takeChar_phase {s : State} (hs : s.listener.state = .slottedAnswers ∨ s.listener.state = .freeAnswer)
    (c : RxChar) : s.takeChar c = s.phaseChar c := by
  rcases hs with hs | hs <;>
    simp only [State.takeChar, Listener.isLate_of_ne_idle (l := s.listener) (by simp [hs]) c, hs, Bool.false_eq_true,
      if_false]

/-! ### A held CONTROL -/

theorem State.takeHeader_hold {s : State} {c : RxChar} (h : s.listener.held = none) (hc : c.code = 25)
    (hp : c.paused = true) : s.takeHeader c = s.onListener fun l => { l with held := some c } := by
  simp only [State.takeHeader, h, hc, hp, and_self, if_true]

theorem State.takeHeader_field {s : State} {c : RxChar} (h : s.listener.held = none)
    (hc : ¬ (c.code = 25 ∧ c.paused = true)) : s.takeHeader c = s.takeField c := by
  simp only [State.takeHeader, h, if_neg hc]

theorem State.takeHeader_call {s : State} {h c : RxChar} (hh : s.listener.held = some h) (hc : c.code = 1) :
    s.takeHeader c = s.newCall h c := by
  simp only [State.takeHeader, hh, if_pos hc]

theorem State.takeHeader_value {s : State} {h c : RxChar} (hh : s.listener.held = some h) (hc : c.code ≠ 1) :
    s.takeHeader c =
      if (s.takeField h).listener.state = .text then (s.takeField h).takeText c else (s.takeField h).takeField c := by
  simp only [State.takeHeader, hh, if_neg hc]

theorem State.takeCheck_hold {s : State} {c : RxChar} (hk : s.listener.check = none) (h : s.listener.held = none)
    (hc : c.code = 25) (hp : c.paused = true) : s.takeCheck c = s.onListener fun l => { l with held := some c } := by
  simp only [State.takeCheck, hk, h, hc, hp, and_self, if_true]

theorem State.takeCheck_first {s : State} {c : RxChar} (hk : s.listener.check = none) (h : s.listener.held = none)
    (hc : ¬ (c.code = 25 ∧ c.paused = true)) : s.takeCheck c = s.onListener fun l => { l with check := some c } := by
  simp only [State.takeCheck, hk, h, if_neg hc]

theorem State.takeCheck_call {s : State} {h c : RxChar} (hk : s.listener.check = none) (hh : s.listener.held = some h)
    (hc : c.code = 1) : s.takeCheck c = s.newCall h c := by
  simp only [State.takeCheck, hk, hh, if_pos hc]

theorem State.takeCheck_value {s : State} {h c : RxChar} (hk : s.listener.check = none) (hh : s.listener.held = some h)
    (hc : c.code ≠ 1) : s.takeCheck c = s.checkTaken h c := by
  simp only [State.takeCheck, hk, hh, if_neg hc]

theorem State.takeCheck_second {s : State} {a c : RxChar} (hk : s.listener.check = some a) :
    s.takeCheck c = s.checkTaken a c := by
  simp only [State.takeCheck, hk]

theorem State.takeText_hold {s : State} {c : RxChar} (h : s.listener.held = none) (hc : c.code = 25) :
    s.takeText c = s.onListener fun l => { l with held := some c } := by
  simp only [State.takeText, h, if_pos hc]

theorem State.takeText_plain {s : State} {c : RxChar} (h : s.listener.held = none) (hc : c.code ≠ 25) :
    s.takeText c = s.textCharacter c := by
  simp only [State.takeText, h, if_neg hc]

theorem State.takeText_call {s : State} {h c : RxChar} (hh : s.listener.held = some h) (hc : c.code = 1) :
    s.takeText c = (s.onListener fun l => { l with held := none }).newCall h c := by
  simp only [State.takeText, hh, if_pos hc]

theorem State.takeText_end {s : State} {h c : RxChar} (hh : s.listener.held = some h) (hc : c.code = 2) :
    s.takeText c = s.onListener fun l => { l with
      state := .check, held := none, acc := padCheck l.acc l.temp, temp := none, check := none
      pairDamaged := l.pairDamaged || h.damaged || c.damaged } := by
  simp only [State.takeText, hh, hc]
  rfl

theorem State.takeText_cancel {s : State} {h c : RxChar} (hh : s.listener.held = some h) (hc : c.code = 3) :
    s.takeText c = (s.onListener fun l => { l with held := none }).messageOver 6 .cancelled .idle := by
  simp only [State.takeText, hh, hc]
  rfl

theorem State.takeText_pair {s : State} {h c : RxChar} (hh : s.listener.held = some h) (h1 : c.code ≠ 1)
    (h2 : c.code ≠ 2) (h3 : c.code ≠ 3) :
    s.takeText c = ((s.onListener fun l => { l with held := none }).textCharacter h).textCharacter c := by
  simp only [State.takeText, hh, if_neg h1, if_neg h2, if_neg h3]

/-! ### A message that does not call this station -/

theorem State.matchText_of_idle {s : State} (h : s.matcher.state ≠ .called) (c : RxChar) : s.matchText c = s := by
  unfold State.matchText
  split
  · contradiction
  · rfl

theorem State.matchBroken_of_idle {s : State} (h : s.matcher.state ≠ .called) (d : Nat) (o : InOutcome) :
    s.matchBroken d o = s := by
  unfold State.matchBroken
  split
  · contradiction
  · rfl

/-- With no CONTROL held, the end of a message completes nothing. -/
theorem State.messageOver_of_not_held {s : State} (h : s.listener.held = none) (d : Nat) (o : InOutcome)
    (next : ListenerState) :
    s.messageOver d o next = (s.matchBroken d o).onListener fun l => { l.drop with state := next } := by
  unfold State.messageOver
  split
  · rename_i hh
    simp [h] at hh
  · rfl

theorem State.newCall_eq (s : State) (h c : RxChar) : s.newCall h c =
    ((s.onListener fun l => { l with held := none }).matchBroken 8 .broken).onListener
      fun l => Listener.open h c { l.drop with state := .header } := by
  rw [State.newCall, State.messageOver_of_not_held rfl]
  rfl

theorem State.newCall_of_idle {s : State} (hm : s.matcher.state ≠ .called) (h c : RxChar) :
    s.newCall h c = s.onListener (Listener.open h c) := by
  rw [State.newCall_eq, State.matchBroken_of_idle (by exact hm)]
  rfl

end Sys2Proof.Machine
end

section
/-! Header characters by count, the end of a receive run, and the second check character (R17, R19, R76 to R83). -/

namespace Sys2Proof.Machine

open Sys2Proof

@[simp] theorem State.withListener_listener (s : State) (l : Listener) : (s.withListener l).listener = l := rfl

@[simp] theorem State.withListener_withListener (s : State) (l k : Listener) :
    (s.withListener l).withListener k = s.withListener k := rfl

@[simp] theorem State.withListener_self (s : State) : s.withListener s.listener = s := rfl

/-! ### A header character -/

/-- The listener with a header character fed in. -/
def Listener.fielded (c : RxChar) (l : Listener) : Listener :=
  { l.cover c with fields := l.fields ++ [c.code], held := none }

/-- The listener once the five fields are a header: TEXT, L for a valid one, and the count for another (R17, R22, R23). -/
def Listener.entered (threshold : Nat) (h : Header) (l : Listener) : Listener :=
  let e : Listener := { l with
    state := .text, valid := h.valid, lastOriginator := if h.valid then h.originator else l.lastOriginator }
  if h.valid then e else e.countError threshold

theorem headerOf_eq_none {xs : List Code} (h : xs.length ≠ 5) : headerOf xs = none := by
  unfold headerOf
  split
  · simp at h
  · rfl

theorem State.takeField_of_none {s : State} {c : RxChar} (h : headerOf (s.listener.fields ++ [c.code]) = none) :
    s.takeField c = s.withListener (s.listener.fielded c) := by
  unfold State.takeField
  dsimp only
  split
  · rename_i hd hh
    exact absurd (h.symm.trans hh) nofun
  · rfl

theorem State.matchHeader_listener (s : State) (h : Header) (valid : Bool) :
    (s.matchHeader h valid).listener = s.listener := by
  have hm := s.matchHeader_withListener s.listener h valid
  rw [State.withListener_self] at hm
  have hl := congrArg State.listener hm
  exact hl

theorem State.takeField_of_some {s : State} {c : RxChar} {h : Header}
    (hh : headerOf (s.listener.fields ++ [c.code]) = some h) :
    s.takeField c = (s.matchHeader h h.valid).withListener
      ((s.listener.fielded c).entered s.loader.params.errorThreshold h) := by
  obtain ⟨m, x, l, g, hm⟩ := s.matchHeader_heard h h.valid
  have hfield : s.takeField c = (s.withListener (s.listener.fielded c)).headerTaken h := by
    unfold State.takeField
    dsimp only
    split
    · rename_i hd hd'
      rw [Option.some.inj (hh.symm.trans hd')]
      rfl
    · rename_i hn
      exact absurd (hh.symm.trans hn) nofun
  have hopen : (s.withListener (s.listener.fielded c)).headerTaken h =
      (let t := (s.withListener { s.listener.fielded c with
          state := .text, valid := h.valid
          lastOriginator := if h.valid then h.originator else (s.listener.fielded c).lastOriginator }).matchHeader
            h h.valid
        if h.valid then t else t.countError) := rfl
  rw [hfield, hopen, State.matchHeader_withListener, hm]
  unfold Listener.entered
  dsimp only
  split <;> rfl

theorem Listener.fielded_counted (threshold : Nat) (c x : RxChar) (l : Listener) :
    (l.counted threshold c).fielded x = (l.fielded x).counted threshold c := by
  unfold Listener.counted
  split <;> rfl

theorem Listener.entered_counted (threshold : Nat) (c : RxChar) (h : Header) (l : Listener) :
    (l.counted threshold c).entered threshold h = (l.entered threshold h).counted threshold c := by
  unfold Listener.counted Listener.entered
  split <;> split <;> rfl

/-- The damage of a character is counted as well before a header character is taken as behind it. -/
theorem State.takeField_counted (s : State) (c x : RxChar) :
    (s.withListener (s.listener.counted s.loader.params.errorThreshold c)).takeField x =
      (s.takeField x).withListener ((s.takeField x).listener.counted s.loader.params.errorThreshold c) := by
  have hfields := Listener.counted_fields s.loader.params.errorThreshold c s.listener
  cases hh : headerOf (s.listener.fields ++ [x.code]) with
  | none =>
    rw [State.takeField_of_none hh, State.takeField_of_none (by simpa [hfields] using hh)]
    simp only [State.withListener_listener, State.withListener_withListener, Listener.fielded_counted]
  | some h =>
    rw [State.takeField_of_some hh, State.takeField_of_some (h := h) (by simpa [hfields] using hh),
      State.matchHeader_withListener]
    simp only [State.withListener_listener, State.withListener_withListener, Listener.fielded_counted]
    exact congrArg _ (Listener.entered_counted ..)

/-- A CONTROL that was a value is taken with its damage, however that is carried. -/
theorem State.takeField_carried (s : State) (h : RxChar) :
    State.takeField (s.withListener { s.listener with held := none, damaged := s.listener.damaged || h.damaged })
      { h with paused := false, damaged := false } = s.takeField h := by
  simp only [State.takeField, State.onListener, State.withListener, Listener.cover, Bool.or_false]

theorem headerOf_isSome {xs : List Code} (h : xs.length = 5) : ∃ hd, headerOf xs = some hd := by
  match xs, h with
  | [_, _, _, _, _], _ => exact ⟨_, rfl⟩

theorem Listener.entered_state (threshold : Nat) (h : Header) (l : Listener) :
    (l.entered threshold h).state = .text ∧ (l.entered threshold h).held = l.held := by
  unfold Listener.entered
  split <;> exact ⟨rfl, rfl⟩

theorem State.takeField_short {s : State} (h : s.listener.fields.length ≠ 4) (c : RxChar) :
    s.takeField c = s.withListener (s.listener.fielded c) :=
  State.takeField_of_none (headerOf_eq_none (by simpa using h))

/-- The fifth header character brings the listener to TEXT. -/
theorem State.takeField_fifth {s : State} (h : s.listener.fields.length = 4) (c : RxChar) :
    (s.takeField c).listener.state = .text ∧ (s.takeField c).listener.held = none := by
  obtain ⟨hd, hh⟩ := headerOf_isSome (xs := s.listener.fields ++ [c.code]) (by simp [h])
  rw [State.takeField_of_some hh]
  exact Listener.entered_state ..

end Sys2Proof.Machine
end

section
/-! What the listener makes of a character (R16 to R20). -/

namespace Sys2Proof.Machine

open Sys2Proof

/-- The incoming record of a run that is closed keeps its log number and its counts, and the peers stand (R79). -/
theorem State.writeGap_incoming {s : State} {i : Incoming} (h : s.matcher.incoming = some i) :
    ∃ g, s.writeGap.matcher = { s.matcher with incoming := some { i with pendingGap := g } } := by
  have hself : s.matcher = { s.matcher with incoming := some { i with pendingGap := i.pendingGap } } := by
    conv_lhs => rw [show s.matcher = { s.matcher with incoming := s.matcher.incoming } from rfl, h]
  unfold State.writeGap
  split
  · rename_i hn
    exact absurd (h.symm.trans hn) nofun
  · rename_i j hj
    obtain rfl := Option.some.inj (h.symm.trans hj)
    split
    · exact ⟨0, by simp [State.onIncoming, h]⟩
    · exact ⟨_, hself⟩

theorem State.closeReceiveRun_incoming {s : State} {i : Incoming} (h : s.matcher.incoming = some i) (d : Option Nat) :
    ∃ carried r g, (s.closeReceiveRun d).matcher = { s.matcher with
      carriedGap := carried, incoming := some { i with runOpen := r, pendingGap := g } } := by
  obtain ⟨g, hg⟩ := State.writeGap_incoming h
  unfold State.closeReceiveRun
  split
  · rename_i hn
    exact absurd (h.symm.trans hn) nofun
  · rename_i j hj
    obtain rfl := Option.some.inj (h.symm.trans hj)
    split
    · refine ⟨addUpTo 255 s.matcher.carriedGap g, false, 0, ?_⟩
      dsimp only
      split
      · split <;> simp [State.onIncoming, hg]
      · simp [State.onIncoming, hg]
    · refine ⟨s.matcher.carriedGap, i.runOpen, i.pendingGap, ?_⟩
      conv_lhs => rw [show s.matcher = { s.matcher with incoming := s.matcher.incoming } from rfl, h]

/-- The end of a called message that is broken or cancelled (R80, R81). -/
theorem State.matchBroken_of_called {s : State} {i : Incoming} (hs : s.matcher.state = .called)
    (hi : s.matcher.incoming = some i) (d : Nat) (o : InOutcome) :
    s.matchBroken d o =
      let closed := s.closeReceiveRun (some d)
      { closed with
        log := s.log.finishIn i.logNumber o i.chars i.lost
        matcher := { closed.matcher with state := .idle, incoming := none, answer := none } } := by
  obtain ⟨carried, r, g, hm⟩ := State.closeReceiveRun_incoming hi (some d)
  obtain ⟨m, x, hrun⟩ := s.closeReceiveRun_run (some d)
  have hlog : (s.closeReceiveRun (some d)).log = s.log := by rw [hrun]
  have hin : (s.closeReceiveRun (some d)).matcher.incoming = some { i with runOpen := r, pendingGap := g } := by rw [hm]
  simp only [State.matchBroken, hs, State.finishIncoming, hin, hlog]

/-- The listener with covered characters fed in. -/
def Listener.fed (xs : List RxChar) (l : Listener) : Listener := { l with
  held := none
  acc := (xs.foldl (fun f x => feedCheck f.1 f.2 x.code) (l.acc, l.temp)).1
  temp := (xs.foldl (fun f x => feedCheck f.1 f.2 x.code) (l.acc, l.temp)).2
  damaged := l.damaged || xs.any RxChar.damaged }

/-- The listener at the opening pair of a message (R5, R16). -/
def Listener.opened (h c : RxChar) (l : Listener) : Listener := { l with
  state := .header, fields := [], valid := false, held := none, acc := 0, temp := none
  damaged := false, pairDamaged := h.damaged || c.damaged, check := none }

theorem Listener.fed_one (l : Listener) (c : RxChar) (h : l.held = none) : l.fed [c] = l.cover c := by
  obtain ⟨⟩ := l
  simp_all [Listener.fed, Listener.cover]

theorem Listener.fed_held (l : Listener) (h : RxChar) : l.fed [h] = ({ l with held := none } : Listener).cover h := by
  simp [Listener.fed, Listener.cover]

theorem Listener.fed_pair (l : Listener) (h c : RxChar) : l.fed [h, c] = (l.fed [h]).cover c := by
  simp [Listener.fed, Listener.cover, Bool.or_assoc]

theorem Listener.fed_fields (l : Listener) (h c : RxChar) :
    { l.fed [h, c] with fields := l.fields ++ [h.code, c.code] } = (l.fielded h).fielded c := by
  simp [Listener.fed, Listener.fielded, Listener.cover, Bool.or_assoc]

theorem State.phaseChar_eq (s : State) (c : RxChar) : s.phaseChar c = match s.transmitter.attempt with
    | some a => if a.phase.isSome = true then
        { s with transmitter := { s.transmitter with heard := s.transmitter.heard ++ [c] } } else s
    | none => s := rfl

theorem State.textCharacter_withListener (s : State) (l : Listener) (c : RxChar) :
    (s.withListener l).textCharacter c = (s.withListener (l.cover c)).matchText c := rfl

theorem State.matchText_listener (s : State) (c : RxChar) : (s.matchText c).listener = s.listener := by
  obtain ⟨m, x, h⟩ : OnlyRun s (s.matchText c) := by
    unfold State.matchText
    split
    · have h := s.onIncoming_run fun i => { i with chars := addUpTo 65535 i.chars 1 }
      split
      · exact h.trans (State.receiveWrite_run _ _)
      · exact h.trans (State.onIncoming_run _ _)
      · exact h
    · exact .refl s
  rw [h]

/-- A CONTROL and a character of the text that is no function (R4): both join the check and are handed on. -/
theorem State.takeText_of_pair {s : State} {h c : RxChar} (hh : s.listener.held = some h) (h1 : c.code ≠ 1)
    (h2 : c.code ≠ 2) (h3 : c.code ≠ 3) :
    s.takeText c =
      State.matchText (((s.withListener (s.listener.fed [h])).matchText h).withListener (s.listener.fed [h, c])) c := by
  rw [State.takeText_pair hh h1 h2 h3, Listener.fed_pair, Listener.fed_held]
  have hl := State.matchText_listener (s.withListener (({ s.listener with held := none } : Listener).cover h)) h
  change State.matchText (State.withListener _ (Listener.cover _ c)) c = _
  rw [show (State.textCharacter (s.onListener fun l => { l with held := none }) h) =
    (s.withListener (({ s.listener with held := none } : Listener).cover h)).matchText h from rfl, hl]
  rfl

/-- A second check character with the first one held as a CONTROL is a second check character (R19). -/
theorem State.checkTaken_held (s : State) (h c : RxChar) :
    s.checkTaken h c = State.checkTaken (s.withListener { s.listener with check := some h, held := none }) h c := rfl

/-- The end of a message that calls this station at a new call or a CANCEL (R80), its listener aside. -/
def State.brokenOff (s : State) (i : Incoming) (d : Nat) (o : InOutcome) : State :=
  let closed := s.closeReceiveRun (some d)
  { closed with
    log := s.log.finishIn i.logNumber o i.chars i.lost
    matcher := { closed.matcher with state := .idle, incoming := none, answer := none } }

theorem State.newCall_of_called {s : State} {i : Incoming} (hs : s.matcher.state = .called)
    (hi : s.matcher.incoming = some i) (h c : RxChar) :
    s.newCall h c = (State.brokenOff (s.withListener { s.listener with held := none }) i 8 .broken).withListener
      (s.listener.opened h c) := by
  have hb : State.matchBroken (s.withListener { s.listener with held := none }) 8 .broken =
      State.brokenOff (s.withListener { s.listener with held := none }) i 8 .broken :=
    State.matchBroken_of_called (s := s.withListener { s.listener with held := none }) hs hi 8 .broken
  have hl : (State.brokenOff (s.withListener { s.listener with held := none }) i 8 .broken).listener =
      { s.listener with held := none } := by
    obtain ⟨m, x, hrun⟩ := State.closeReceiveRun_run (s.withListener { s.listener with held := none }) (some 8)
    rw [State.brokenOff, hrun]
    rfl
  have hnew : s.newCall h c =
      State.onListener (State.matchBroken (s.withListener { s.listener with held := none }) 8 .broken)
        fun l => Listener.open h c { l.drop with state := .header } := s.newCall_eq h c
  rw [hnew, hb, State.onListener, hl]
  rfl

theorem State.cancelled_of_called {s : State} {i : Incoming} (hs : s.matcher.state = .called)
    (hi : s.matcher.incoming = some i) (h : s.listener.held = none) :
    s.messageOver 6 .cancelled .idle =
      (s.brokenOff i 6 .cancelled).withListener { s.listener.drop with state := .idle } := by
  obtain ⟨m, x, hrun⟩ := s.closeReceiveRun_run (some 6)
  rw [State.messageOver_of_not_held h, State.matchBroken_of_called hs hi, State.brokenOff, hrun]
  rfl

end Sys2Proof.Machine
end

section
/-! The characters a listener follows (section 1.4). -/

namespace Sys2Proof.Machine

open Sys2Proof

/-- The listener of a state with the damage of a character counted. -/
def State.counting (s : State) (c : RxChar) : Listener := s.listener.counted s.loader.params.errorThreshold c

theorem State.counting_state (s : State) (c : RxChar) : (s.counting c).state = s.listener.state := Listener.counted_state ..

theorem State.listen_counting {s : State} {c : RxChar} (h : (s.counting c).state ≠ .quietWait) :
    s.listen c = (s.withListener (s.counting c)).takeChar c :=
  State.listen_eq (by rwa [← s.counting_state c]) c

theorem State.listen_idle {s : State} {c : RxChar} (hs : (s.counting c).state = .idle)
    (h : ¬ ∃ e, (s.counting c).phaseEnd = some e ∧ c.start < e) :
    s.listen c = (s.withListener (s.counting c)).takeIdle c := by
  rw [State.listen_counting (by simp [hs]), State.takeChar_idle hs]
  exact Bool.eq_false_iff.mpr fun hl => h ((Listener.isLate_iff _ c).mp hl).2

theorem State.listen_late {s : State} {c : RxChar} (hs : (s.counting c).state = .idle)
    (h : ∃ e, (s.counting c).phaseEnd = some e ∧ c.start < e) :
    s.listen c = (s.withListener (s.counting c)).phaseChar c := by
  rw [State.listen_counting (by simp [hs]), State.takeChar_late ((Listener.isLate_iff _ c).mpr ⟨hs, h⟩)]

theorem State.listen_phase {s : State} {c : RxChar}
    (hs : (s.counting c).state = .slottedAnswers ∨ (s.counting c).state = .freeAnswer) :
    s.listen c = (s.withListener (s.counting c)).phaseChar c := by
  rw [State.listen_counting (by rcases hs with hs | hs <;> simp [hs]), State.takeChar_phase hs]

theorem State.listen_header {s : State} {c : RxChar} (hs : (s.counting c).state = .header) :
    s.listen c = (s.withListener (s.counting c)).takeHeader c := by
  rw [State.listen_counting (by simp [hs]), State.takeChar_header hs]

theorem State.listen_text {s : State} {c : RxChar} (hs : (s.counting c).state = .text) :
    s.listen c = (s.withListener (s.counting c)).takeText c := by
  rw [State.listen_counting (by simp [hs]), State.takeChar_text hs]

theorem State.listen_check {s : State} {c : RxChar} (hs : (s.counting c).state = .check) :
    s.listen c = (s.withListener (s.counting c)).takeCheck c := by
  rw [State.listen_counting (by simp [hs]), State.takeChar_check hs]

/-- A CONTROL that was a value of the header, and the character behind it, are taken one after another (R17). -/
theorem State.listen_header_value {s : State} {h c : RxChar} (hs : (s.counting c).state = .header)
    (hlen : (s.counting c).fields.length ≤ 4) (hh : (s.counting c).held = some h) (hc : c.code ≠ 1) :
    s.listen c = State.listen
      (State.listen
        (s.withListener { s.listener with held := none, damaged := s.listener.damaged || h.damaged })
        { h with paused := false, damaged := false })
      (if (s.counting c).fields.length < 4 then { c with paused := false } else c) := by
  have hs' : s.listener.state = .header := (s.counting_state c).symm.trans hs
  have hlen' : s.listener.fields.length = (s.counting c).fields.length :=
    congrArg List.length (Listener.counted_fields ..).symm
  have hfirst : State.listen
      (s.withListener { s.listener with held := none, damaged := s.listener.damaged || h.damaged })
      { h with paused := false, damaged := false } = s.takeField h := by
    rw [State.listen_eq (by simp [hs']), ← State.takeField_carried s h]
    simp only [State.withListener_listener, Listener.counted, Bool.false_eq_true, if_false, State.withListener_withListener]
    rw [State.takeChar_header (by exact hs'), State.takeHeader_field rfl (by simp)]
  have hcounted := State.takeField_counted s c h
  have hloader : (s.takeField h).loader = s.loader := by
    obtain ⟨m, x, l, g, ht⟩ := s.takeField_heard h
    rw [ht]
  rw [hfirst, State.listen_header hs, State.takeHeader_value hh hc, State.counting, hcounted]
  simp only [State.withListener_listener, Listener.counted_state]
  by_cases h4 : (s.counting c).fields.length = 4
  · obtain ⟨ht, -⟩ := State.takeField_fifth (s := s) (by omega) h
    rw [if_pos ht, if_neg (by rw [← State.counting]; omega), State.listen_eq (by simp [ht]), hloader]
    exact (State.takeChar_text (by simp [Listener.counted_state, ht]) c).symm
  · have hshort := State.takeField_short (s := s) (by omega) h
    have ht : (s.takeField h).listener.state = .header := by rw [hshort]; exact hs'
    have hheld : (s.takeField h).listener.held = none := by rw [hshort]; rfl
    rw [if_neg (by simp [ht]), if_pos (by rw [← State.counting]; omega), State.listen_eq (by simp [ht]), hloader,
      State.takeChar_header (by simp [Listener.counted_state, ht]),
      State.takeHeader_field (by simp [Listener.counted_held, hheld]) (by simp)]
    rfl

theorem State.takeIdle_of_none {s : State} {c : RxChar} (h : s.listener.held = none) :
    s.takeIdle c = s.withListener (if c.code = 25 then { s.listener with held := some c } else s.listener) := by
  simp only [State.takeIdle, h]
  split <;> rfl

theorem State.takeIdle_of_some {s : State} {h c : RxChar} (hh : s.listener.held = some h) :
    s.takeIdle c = s.withListener
      (if c.code = 1 then s.listener.opened h c else { s.listener with held := none }) := by
  simp only [State.takeIdle, hh]
  split <;> rfl

theorem State.takeHeader_two {s : State} {h c : RxChar} (hs : s.listener.state = .header) (hlen : s.listener.fields.length < 3)
    (hh : s.listener.held = some h) (hc : c.code ≠ 1) :
    s.takeHeader c = s.withListener
      { s.listener.fed [h, c] with fields := s.listener.fields ++ [h.code, c.code] } := by
  have hfirst := State.takeField_short (s := s) (by omega) h
  rw [State.takeHeader_value hh hc, hfirst, if_neg (by simp [Listener.fielded, Listener.cover, hs]),
    State.takeField_short (by simp [Listener.fielded, Listener.cover]; omega), Listener.fed_fields]
  rfl

theorem Listener.counted_checked (threshold : Nat) (c x : RxChar) (l : Listener) :
    ({ l with check := some x, held := none } : Listener).counted threshold c =
      { l.counted threshold c with check := some x, held := none } := by
  unfold Listener.counted
  split <;> rfl

/-- A CONTROL that was the first check character, and the second one behind it (R19). -/
theorem State.listen_check_value {s : State} {x c : RxChar} (hs : (s.counting c).state = .check)
    (hk : (s.counting c).check = none) (hh : (s.counting c).held = some x) (hc : c.code ≠ 1) :
    s.listen c = State.listen (s.withListener { s.listener with check := some x, held := none }) c := by
  have hcounting : (s.withListener { s.listener with check := some x, held := none }).counting c =
      { s.counting c with check := some x, held := none } := Listener.counted_checked ..
  rw [State.listen_check hs, State.takeCheck_value hk hh hc, State.checkTaken_held,
    State.listen_check (by rw [hcounting]; exact hs), State.takeCheck_second (a := x) (by rw [hcounting]; rfl), hcounting]
  rfl

theorem State.takeText_handed {s : State} {c : RxChar} (hh : s.listener.held = none) (hc : c.code ≠ 25) :
    s.takeText c = (s.withListener (s.listener.fed [c])).matchText c := by
  rw [State.takeText_plain hh hc, Listener.fed_one _ c hh]
  rfl

/-- The message that calls this station ends at a new call or a CANCEL (R18, R80). -/
theorem State.takeText_broken {s : State} {i : Incoming} {h c : RxChar} (hh : s.listener.held = some h)
    (hm : s.matcher.state = .called) (hi : s.matcher.incoming = some i) (hc : c.code = 1 ∨ c.code = 3) :
    s.takeText c = (State.brokenOff (s.withListener { s.listener with held := none }) i (if c.code = 1 then 8 else 6)
        (if c.code = 1 then .broken else .cancelled)).withListener
      (if c.code = 1 then s.listener.opened h c
        else { s.listener.opened h c with state := .idle, pairDamaged := false }) := by
  rcases hc with hc | hc
  · simp only [hc, if_true]
    rw [State.takeText_call hh hc, State.newCall_of_called (s := s.onListener _) hm hi]
    rfl
  · have h31 : ¬ (3 : Code) = 1 := by decide
    simp only [hc, if_neg h31]
    rw [State.takeText_cancel hh hc, State.cancelled_of_called (s := s.onListener _) hm hi rfl]
    rfl

/-- The functions of the text of a message that does not call this station (R18). -/
theorem State.takeText_function {s : State} {h c : RxChar} (hh : s.listener.held = some h)
    (hm : s.matcher.state ≠ .called) (hc : c.code ≠ 2) :
    s.takeText c = s.withListener
      (if c.code = 1 then s.listener.opened h c
        else if c.code = 3 then { s.listener.opened h c with state := .idle, pairDamaged := false }
        else s.listener.fed [h, c]) := by
  by_cases h1 : c.code = 1
  · rw [if_pos h1, State.takeText_call hh h1, State.newCall_of_idle (by exact hm)]
    rfl
  · rw [if_neg h1]
    by_cases h3 : c.code = 3
    · rw [if_pos h3, State.takeText_cancel hh h3, State.messageOver_of_not_held rfl,
        State.matchBroken_of_idle (by exact hm)]
      rfl
    · rw [if_neg h3, State.takeText_of_pair hh h1 hc h3, State.matchText_of_idle (s := s.withListener (s.listener.fed [h])) hm,
        State.matchText_of_idle (by exact hm)]
      rfl

/-- The two ways into a new call that is not in the text: of the header, and of the check part before its first
character. -/
theorem State.listen_new_call {s : State} {h c : RxChar}
    (hs : (s.counting c).state = .header ∨ (s.counting c).state = .check ∧ (s.counting c).check = none)
    (hh : (s.counting c).held = some h) (hc : c.code = 1) :
    s.listen c = (s.withListener (s.counting c)).newCall h c := by
  rcases hs with hs | ⟨hs, hk⟩
  · rw [State.listen_header hs, State.takeHeader_call hh hc]
  · rw [State.listen_check hs, State.takeCheck_call hk hh hc]

/-- Settles O34: the listener's state by state, each by the branch of its character. -/
theorem charactersAreFollowed : Obligations.CharactersAreFollowed := by
  refine ⟨fun s start paused bits hw h hlen hlevel => ?stopSample, fun s c => ⟨fun hs => ?quietWait, fun hs hlate => ?late,
    fun hs => ?phase, fun hs hlate => ⟨fun hh => ?idleControl, fun x hh => ?idlePair⟩, fun hs hh hc hp => ?paused,
    fun hs hm hc x hh => ?newCall, fun hs hlen hc x hh => ?fields, fun hs hlen hc x hh => ?value,
    fun hs hk hh hc => ?firstCheck, fun hs hk hc x hh => ?checkValue, fun hs hh hc => ?textControl,
    fun x hs hh hc => ?textEnd, fun hs hm hh hc => ?textPlain, fun hs hh hc => ?textHanded,
    fun x hs hh h1 h2 h3 => ?textPair, fun x i hh hm hi hbroken => ?broken, fun x hs hm hh hc => ?textFunction⟩⟩
  case stopSample =>
    exact answers_of_perform (exec_stopSample h) hw (by simp [hlen]) (if_pos hlevel)
  case quietWait => exact State.listen_quietWait ((s.counting_state c).symm.trans hs) c
  case late => exact State.listen_late hs hlate
  case phase => exact State.listen_phase hs
  case idleControl =>
    exact (State.listen_idle hs hlate).trans (State.takeIdle_of_none hh)
  case idlePair => exact (State.listen_idle hs hlate).trans (State.takeIdle_of_some hh)
  case paused =>
    rcases hs with hs | ⟨hs, hk⟩
    · exact (State.listen_header hs).trans (State.takeHeader_hold hh hc hp)
    · exact (State.listen_check hs).trans (State.takeCheck_hold hk hh hc hp)
  case newCall =>
    refine (State.listen_new_call hs hh hc).trans (State.newCall_of_idle ?_ x c)
    exact fun hcalled => absurd (hm.1.symm.trans hcalled) nofun
  case fields => exact (State.listen_header hs).trans (State.takeHeader_two hs hlen hh hc)
  case value => exact State.listen_header_value hs hlen hh hc
  case firstCheck => exact (State.listen_check hs).trans (State.takeCheck_first hk hh hc)
  case checkValue => exact State.listen_check_value hs hk hh hc
  case textControl => exact (State.listen_text hs).trans (State.takeText_hold hh hc)
  case textEnd => exact (State.listen_text hs).trans (State.takeText_end hh hc)
  case textPlain =>
    refine (State.listen_text hs).trans ((State.takeText_handed hh hc).trans (State.matchText_of_idle ?_ c))
    exact fun hcalled => absurd (hm.1.symm.trans hcalled) nofun
  case textHanded => exact (State.listen_text hs).trans (State.takeText_handed hh hc)
  case textPair => exact (State.listen_text hs).trans (State.takeText_of_pair hh h1 h2 h3)
  case broken =>
    rcases hbroken with ⟨hs, hc⟩ | ⟨hc, hs⟩
    · exact (State.listen_text hs).trans (State.takeText_broken hh hm hi hc)
    · refine (State.listen_new_call hs hh hc).trans ((State.newCall_of_called (s := s.withListener (s.counting c)) hm hi x c).trans ?_)
      simp only [hc, if_true]
      rfl
  case textFunction =>
    refine (State.listen_text hs).trans (State.takeText_function hh ?_ hc)
    exact fun hcalled => absurd (hm.1.symm.trans hcalled) nofun

end Sys2Proof.Machine
end

section
/-! The header and the second check character (R17, R19, R69, R76 to R83). -/

namespace Sys2Proof.Machine

open Sys2Proof

theorem Header.valid_iff (h : Header) : h.valid = true ↔
    ((1 ≤ h.kind.val ∧ h.kind.val ≤ 5) ∨ (17 ≤ h.kind.val ∧ h.kind.val ≤ 21)) ∧ h.originator.val ≤ 30 := by
  have hne : h.originator ≠ 31 ↔ h.originator.val ≤ 30 := by
    rw [Ne, ← Fin.val_inj]
    simp only [Fin.isValue, Fin.coe_ofNat_eq_mod]
    omega
  simp [Header.valid, hne]

/-- A header character in the listener that holds no CONTROL. -/
theorem Listener.fielded_of_not_held {l : Listener} (h : l.held = none) (c : RxChar) :
    l.fielded c = { l with
      acc := (feedCheck l.acc l.temp c.code).1, temp := (feedCheck l.acc l.temp c.code).2
      damaged := l.damaged || c.damaged, fields := l.fields ++ [c.code] } := by
  obtain ⟨⟩ := l
  simp_all [Listener.fielded, Listener.cover]

theorem Listener.entered_of_valid {h : Header} (hv : h.valid = true) (threshold : Nat) (l : Listener) :
    l.entered threshold h = { l with state := .text, valid := true, lastOriginator := h.originator } := by
  simp [Listener.entered, hv]

theorem Listener.entered_of_invalid {h : Header} (hv : h.valid = false) (threshold : Nat) (l : Listener) :
    l.entered threshold h = ({ l with state := .text, valid := false } : Listener).countError threshold := by
  simp [Listener.entered, hv]

theorem State.matchHeader_of_not {s : State} {h : Header} {valid : Bool}
    (hn : valid = false ∨ s.loader.matches h = false ∨ s.matcher.state ≠ .idle) : s.matchHeader h valid = s := by
  refine if_neg ?_
  rcases hn with hn | hn | hn <;> simp [hn]

/-- The incoming record and the unfinished log record of a matched header, whether a run is opened (R69). -/
def State.called (s : State) (h : Header) (accepted : Bool) : State :=
  let made := s.log.create h.seq (.incoming h.originator h.kind none 0)
  { s with
    log := made.1
    matcher := { s.matcher with
      state := .called, answer := none
      incoming := some {
        header := h, logNumber := made.2, disposition := s.disposition h
        toPrint := baseKind h.kind != 3
        toPunch := baseKind h.kind == 3 || (baseKind h.kind == 1 && s.mech.punch.switch == .receive)
        runOpen := accepted, pendingGap := 0, lost := 0, chars := 0 } } }

theorem State.takeCall_accepted {s : State} {h : Header} (hd : s.disposition h = .accepted) :
    s.takeCall h = (s.called h true).openReceiveRun := by
  have hacc : (s.disposition h == .accepted) = true := by simpa using hd
  simp only [State.takeCall, hacc, if_true]
  rfl

theorem State.takeCall_other {s : State} {h : Header} (hd : s.disposition h ≠ .accepted) :
    s.takeCall h = s.called h false := by
  have hacc : (s.disposition h == .accepted) = false := by simpa using hd
  simp only [State.takeCall, hacc, Bool.false_eq_true, if_false]
  rfl

/-- A header character counted and taken, with no CONTROL held. -/
theorem State.listen_field {s : State} {c : RxChar} (hs : s.listener.state = .header) (hh : s.listener.held = none)
    (hc : ¬ (c.code = 25 ∧ c.paused = true)) : s.listen c = (s.withListener (s.counting c)).takeField c := by
  rw [State.listen_header ((s.counting_state c).trans hs),
    State.takeHeader_field ((Listener.counted_held ..).trans hh) hc]

/-- Settles O35: the fields by `State.takeField_of_none`, the header by its validity, its match and its disposition. -/
theorem headerIsTakenByCount : Obligations.HeaderIsTakenByCount := by
  intro s c hs hh hc
  have hlisten := State.listen_field hs hh hc
  have hheld : (s.counting c).held = none := (Listener.counted_held ..).trans hh
  have hfielded := Listener.fielded_of_not_held hheld c
  refine ⟨fun hlen => ?short, fun h hhead => ⟨fun hv => ?invalid, fun hv hno => ?unmatched, fun hv hmatch hidle =>
    ⟨fun hd => ?other, fun hd => ?accepted⟩⟩⟩
  case short =>
    refine hlisten.trans ((State.takeField_short (s := s.withListener (s.counting c)) (Nat.ne_of_lt hlen) c).trans ?_)
    exact congrArg (s.withListener ·) hfielded
  all_goals
    have hfield := State.takeField_of_some (s := s.withListener (s.counting c)) hhead
    rw [State.withListener_listener, hfielded] at hfield
  case invalid =>
    have hv' : h.valid = false := Bool.eq_false_iff.mpr fun ht => hv (h.valid_iff.mp ht)
    rw [State.matchHeader_of_not (.inl hv'), Listener.entered_of_invalid hv'] at hfield
    exact hlisten.trans hfield
  all_goals
    have hv' : h.valid = true := h.valid_iff.mpr hv
    rw [Listener.entered_of_valid hv', State.matchHeader_withListener, State.withListener_withListener] at hfield
  case unmatched =>
    rw [State.matchHeader_of_not (.inr hno)] at hfield
    exact hlisten.trans hfield
  all_goals
    have htake : s.matchHeader h h.valid = s.takeCall h := if_pos (by simp [hv', hmatch, hidle])
    rw [htake, ← State.takeCall_withListener] at hfield
  case other => exact (hlisten.trans hfield).trans (State.takeCall_other (s := s.withListener _) hd)
  case accepted => exact (hlisten.trans hfield).trans (State.takeCall_accepted (s := s.withListener _) hd)

end Sys2Proof.Machine
end

section
/-! The second check character (R9, R10, R19, R76 to R83). -/

namespace Sys2Proof.Machine

open Sys2Proof

/-- The transmitter told of a phase: an attempt that is SENDING takes it as its own (R56). -/
def Transmitter.told (x : Transmitter) (active : Option Message) (now : Ticks) (ph : Phase) : Transmitter :=
  match x.attempt with
  | some a =>
    if active.any (·.state == .sending) = true ∧ a.granted ≤ now then
      { x with attempt := some { a with phase := some ph, phaseOver := false }, heard := [] }
    else x
  | none => x

theorem State.phaseReported_eq (s : State) (ph : Phase) :
    s.phaseReported ph = { s with transmitter := s.transmitter.told s.active s.now ph } := by
  unfold State.phaseReported Transmitter.told
  cases ha : s.transmitter.attempt with
  | none => rfl
  | some x =>
    by_cases hx : s.active.any (·.state == .sending) = true ∧ x.granted ≤ s.now
    · exact (if_pos hx).trans (by simp only [if_pos hx])
    · exact (if_neg hx).trans (by simp only [if_neg hx])

theorem endOutcome_eq (i : Incoming) (r : Code) : endOutcome i r =
    if r = 3 then .checkFailed
    else if i.disposition = .refused then .refused
    else if i.disposition = .duplicate then .duplicate
    else if r = 4 then .overrun
    else if i.disposition = .enquiry ∨ i.disposition = .status then .answered
    else if r = 1 then .complete else .heldComplete := by
  unfold endOutcome
  cases i.disposition <;> simp

/-- The peer table at the end of a called message (R78). -/
def State.peersAtEnd (s : State) (i : Incoming) (good : Bool) : Vector (Option PeerEntry) 31 :=
  if i.disposition = .accepted ∧ good = true then
    s.matcher.peers.setIfInBounds i.header.originator.val
      (some { seq := i.header.seq, response := s.response i good })
  else s.matcher.peers

/-- The run closed at the end of a called message, the peer remembered (R78, R79). -/
def State.endClosed (s : State) (i : Incoming) (good : Bool) : State :=
  State.closeReceiveRun { s with matcher := { s.matcher with peers := s.peersAtEnd i good } }
    (endNotice (s.response i good))

theorem Matcher.remember_eq (s : State) (i : Incoming) (good : Bool) :
    s.matcher.remember i good (s.response i good) = { s.matcher with peers := s.peersAtEnd i good } := by
  unfold Matcher.remember State.peersAtEnd
  split <;> rfl

/-- What a called message leaves at its end: its run closed, its record finished, the answer or none (R76). -/
theorem State.endCalled_eq {s : State} {i : Incoming} (hi : s.matcher.incoming = some i) (good : Bool) (ph : Phase) :
    s.endCalled i good ph =
      { s.endClosed i good with
        log := s.log.finishIn i.logNumber (endOutcome i (s.response i good)) i.chars i.lost
        matcher := {
          state := if (s.formAnswer i (s.response i good) ph).isSome then .due else .idle
          peers := s.peersAtEnd i good
          carriedGap := (s.endClosed i good).matcher.carriedGap
          incoming := none
          answer := s.formAnswer i (s.response i good) ph } } := by
  have hi' : ({ s with matcher := { s.matcher with peers := s.peersAtEnd i good } } : State).matcher.incoming =
      some i := hi
  obtain ⟨carried, o, g, hm⟩ := State.closeReceiveRun_incoming hi' (endNotice (s.response i good))
  obtain ⟨m, x, hrun⟩ := State.closeReceiveRun_run
    { s with matcher := { s.matcher with peers := s.peersAtEnd i good } } (endNotice (s.response i good))
  have hlog := congrArg State.log hrun
  have hclosed : s.endCalled i good ph =
      (let t := (s.endClosed i good).finishIncoming (endOutcome i (s.response i good))
       { t with matcher := { t.matcher with
          state := if (s.formAnswer i (s.response i good) ph).isSome then .due else .idle
          answer := s.formAnswer i (s.response i good) ph } }) := by
    rw [State.endClosed, ← Matcher.remember_eq]
    rfl
  rw [← State.endClosed] at hm hlog
  rw [hclosed]
  simp only [State.finishIncoming, hm, hlog]

theorem State.matchEnd_of_called {s : State} {i : Incoming} (hs : s.matcher.state = .called)
    (hi : s.matcher.incoming = some i) (good : Bool) (ph : Phase) : s.matchEnd good ph = s.endCalled i good ph := by
  simp only [State.matchEnd, hs, hi]

theorem State.matchEnd_of_not_called {s : State} (hs : s.matcher.state ≠ .called) (good : Bool) (ph : Phase) :
    s.matchEnd good ph = s := by
  unfold State.matchEnd
  split
  · contradiction
  · rfl

theorem State.endCalled_frame {s : State} {i : Incoming} (hi : s.matcher.incoming = some i) (good : Bool) (ph : Phase) :
    ∃ m x g, s.endCalled i good ph = { s with mech := m, matcher := x, log := g } := by
  rw [State.endCalled_eq hi]
  obtain ⟨m, x, hrun⟩ := State.closeReceiveRun_run
    { s with matcher := { s.matcher with peers := s.peersAtEnd i good } } (endNotice (s.response i good))
  rw [← State.endClosed] at hrun
  rw [hrun]
  exact ⟨_, _, _, rfl⟩

theorem State.matchEnd_frame (s : State) (good : Bool) (ph : Phase) :
    ∃ m x g, s.matchEnd good ph = { s with mech := m, matcher := x, log := g } := by
  unfold State.matchEnd
  split
  · exact State.endCalled_frame ‹_› good ph
  · exact ⟨_, _, _, rfl⟩

/-- The check is good (R9). -/
def checkGood (l : Listener) (a b : RxChar) : Bool :=
  addSymbol l.acc (32 * a.code.val + b.code.val) == 1023 && !l.damaged && !a.damaged && !b.damaged

/-- The answer phase behind a second check character (R10). -/
def phaseBehind (l : Listener) (b : RxChar) : Phase := { t0 := b.stop, isFree := (headerOf l.fields).any isFreePhase }

/-- The listener with the check formed. -/
def Listener.checked (l : Listener) (a b : RxChar) : Listener :=
  { l with acc := addSymbol l.acc (32 * a.code.val + b.code.val), held := none, check := none }

/-- The listener behind the second check character: the result counted (R23) and the phase entered. -/
def Listener.ended (threshold : Nat) (l : Listener) (a b : RxChar) : Listener :=
  let judged :=
    if checkGood l a b then (if l.valid then (l.checked a b).countGood else l.checked a b)
    else (l.checked a b).countError threshold
  { judged with
    state := if (phaseBehind l b).isFree then .freeAnswer else .slottedAnswers
    t0 := b.stop
    startSeen := false }

/-- The end of a message is handed on, then the result is counted and the phase reported (R19). -/
theorem State.checkTaken_eq (s : State) (a b : RxChar) :
    s.checkTaken a b =
      { (s.withListener (s.listener.checked a b)).matchEnd (checkGood s.listener a b && !s.listener.pairDamaged)
          (phaseBehind s.listener b) with
        listener := s.listener.ended s.loader.params.errorThreshold a b
        transmitter := s.transmitter.told s.active s.now (phaseBehind s.listener b) } := by
  obtain ⟨m, x, g, hend⟩ := State.matchEnd_frame (s.withListener (s.listener.checked a b))
    (checkGood s.listener a b && !s.listener.pairDamaged) (phaseBehind s.listener b)
  have hdef : s.checkTaken a b =
      (let e := (s.withListener (s.listener.checked a b)).matchEnd
          (checkGood s.listener a b && !s.listener.pairDamaged) (phaseBehind s.listener b)
       let j := if checkGood s.listener a b then (if s.listener.valid then e.onListener Listener.countGood else e)
         else e.countError
       State.phaseReported (j.onListener fun l => { l with
          state := if (phaseBehind s.listener b).isFree then .freeAnswer else .slottedAnswers
          t0 := b.stop
          startSeen := false }) (phaseBehind s.listener b)) := rfl
  rw [hdef, hend, State.phaseReported_eq]
  unfold Listener.ended
  cases checkGood s.listener a b <;> cases s.listener.valid <;> rfl

@[simp] theorem State.withListener_loader (s : State) (l : Listener) : (s.withListener l).loader = s.loader := rfl

/-! ### The words of the statement -/

theorem checkGood_eq (l : Listener) (a b : RxChar) : checkGood l a b =
    decide (addSymbol l.acc (32 * a.code.val + b.code.val) = 1023 ∧ l.damaged = false ∧ a.damaged = false ∧
      b.damaged = false) := by
  rw [Bool.eq_iff_iff]
  simp [checkGood, and_assoc]

theorem isFreePhase_eq (h : Header) : isFreePhase h =
    decide (h.valid = true ∧ h.group = 0 ∧ h.station ≠ 31 ∧ (baseKind h.kind = 4 ∨ baseKind h.kind = 5)) := by
  rw [Bool.eq_iff_iff]
  simp [isFreePhase, and_assoc]

theorem phaseBehind_eq {l : Listener} {h : Header} (hh : headerOf l.fields = some h) (b : RxChar) :
    phaseBehind l b = { t0 := b.stop, isFree := isFreePhase h } := by
  simp [phaseBehind, hh]

/-- The listener behind the check, its result counted up or down (R23). -/
theorem Listener.ended_eq (threshold : Nat) (l : Listener) (a b : RxChar) :
    l.ended threshold a b =
      let judged : Listener :=
        if checkGood l a b = false then { l.checked a b with
          errors := min 63 (l.errors + 1)
          degraded := l.degraded || decide (threshold < min 63 (l.errors + 1)) }
        else if l.valid = true then
          { l.checked a b with errors := l.errors - 1, degraded := l.degraded && decide (l.errors - 1 ≠ 0) }
        else l.checked a b
      { judged with
        state := if (phaseBehind l b).isFree then .freeAnswer else .slottedAnswers
        t0 := b.stop, startSeen := false } := by
  have hbne : (l.errors - 1 != 0) = decide (l.errors - 1 ≠ 0) := by
    rw [Bool.eq_iff_iff]
    simp
  unfold Listener.ended
  cases checkGood l a b with
  | false => rfl
  | true =>
    cases l.valid with
    | false => rfl
    | true => simp only [Listener.countGood, Listener.checked, hbne, if_true, Bool.true_eq_false, if_false]

/-- Settles O36: the check and the phase by `State.checkTaken_eq`, a called message's end by `State.endCalled_eq`. -/
theorem secondCheckCharacterEndsTheMessage : Obligations.SecondCheckCharacterEndsTheMessage := by
  intro s a c h hs hk hh
  have hk' : (s.counting c).check = some a := (Listener.counted_check ..).trans hk
  have hh' : headerOf (s.counting c).fields = some h := (congrArg headerOf (Listener.counted_fields ..)).trans hh
  have hlisten : s.listen c = (s.withListener (s.counting c)).checkTaken a c :=
    (State.listen_check ((s.counting_state c).trans hs)).trans (State.takeCheck_second hk')
  rw [State.checkTaken_eq] at hlisten
  have hended := Listener.ended_eq s.loader.params.errorThreshold (s.counting c) a c
  rw [phaseBehind_eq hh', isFreePhase_eq, checkGood_eq] at hended
  simp only [State.withListener_listener, State.withListener_withListener, phaseBehind_eq hh', isFreePhase_eq,
    checkGood_eq, State.withListener_loader, hended] at hlisten
  refine ⟨fun hm => ?silent, fun i hm hi => ?called⟩
  case silent =>
    refine hlisten.trans ?_
    rw [State.matchEnd_of_not_called (by exact hm)]
    rfl
  case called =>
    refine hlisten.trans ?_
    rw [State.matchEnd_of_called (s := s.withListener ((s.counting c).checked a c)) hm hi,
      State.endCalled_eq (s := s.withListener ((s.counting c).checked a c)) hi, endOutcome_eq]
    rfl

end Sys2Proof.Machine
end

section
/-! The response and the answer (R77, R82, R83), and the answers collected (R57 to R59). -/

namespace Sys2Proof.Machine

open Sys2Proof

/-! ### The response -/

theorem Mech.able_iff (m : Mech) (i : Incoming) : m.able i = true ↔
    m.motor.state ≠ .fault ∧
      (i.toPrint = true → m.printer.state = .off ∨ m.printer.state = .idle ∨ m.printer.state = .active) ∧
      (i.toPunch = true → m.punch.switch = .receive ∧
        (m.punch.state = .off ∨ m.punch.state = .idle ∨ m.punch.state = .cycling)) := by
  have himp (b : Bool) (q : Prop) : (b = false ∨ q) ↔ (b = true → q) := by cases b <;> simp
  simp [Mech.able, Printer.able, Punch.able, and_assoc, or_assoc, himp]

/-- The good end of a message, by its disposition (R77). -/
theorem State.response_good (s : State) (i : Incoming) : s.response i true =
    match i.disposition with
    | .refused => 5
    | .duplicate => ((s.matcher.peer i.header.originator).map PeerEntry.response).getD 1
    | .lost => 4
    | .enquiry | .status => if 0 < i.lost then 4 else 1
    | .accepted => if 0 < i.lost then 4 else if s.mech.able i then 1 else 2 := rfl

theorem State.formAnswer_slotted {s : State} {own : Code} (h : s.loader.params.own = some own) (i : Incoming) (r : Code)
    (t0 : Ticks) : s.formAnswer i r { t0 := t0, isFree := false } =
      if own.val < s.loader.params.slots then some {
        response := r, chars := [r, own]
        start := t0 + own.val * (3 * s.loader.params.charTime) + 4 * s.loader.params.unit, supplied := 0 }
      else none := by
  simp only [State.formAnswer, h]
  rfl

theorem State.formAnswer_free {s : State} {own : Code} (h : s.loader.params.own = some own) (i : Incoming) (r : Code)
    (t0 : Ticks) : s.formAnswer i r { t0 := t0, isFree := true } = some {
      response := r
      chars := [r, own] ++
        (if r = 1 ∧ i.disposition = .enquiry then
           toCode s.loader.params.answerBack.length :: s.loader.params.answerBack
         else if r = 1 ∧ i.disposition = .status then s.statusCharacters
         else [])
      start := t0 + 4 * s.loader.params.unit
      supplied := 0 } := by
  simp only [State.formAnswer, h, if_true]
  by_cases hr : r = 1
  · cases hd : i.disposition <;> simp [hr]
  · simp [hr]

/-- Settles O38: the table row by row, the answer by the kind of its phase. -/
theorem responseFollowsTheTable : Obligations.ResponseFollowsTheTable := by
  refine ⟨fun s i => ⟨rfl, fun hd => ?refused, fun e hd he => ?duplicate, fun hd => ?lost, fun hd hl => ?enquiry,
    fun hd hl => ?overrun, fun hd hl ha => ?ack, fun hd hl ha => ?held⟩, fun s i own r t0 hown =>
    ⟨fun hlt => ?slot, fun hge => ?noSlot, ?free⟩⟩
  case refused => rw [State.response_good, hd]
  case duplicate => rw [State.response_good, hd, he]; rfl
  case lost => rw [State.response_good, hd]
  case enquiry => rw [State.response_good]; rcases hd with hd | hd <;> simp [hd, hl]
  case overrun => rw [State.response_good]; rcases hd with hd | hd | hd <;> simp [hd, hl]
  case ack => rw [State.response_good]; simp [hd, hl, (s.mech.able_iff i).mpr ha]
  case held =>
    have hno : s.mech.able i = false := Bool.eq_false_iff.mpr fun h => ha ((s.mech.able_iff i).mp h)
    rw [State.response_good]; simp [hd, hl, hno]
  case slot => exact (State.formAnswer_slotted hown i r t0).trans (if_pos hlt)
  case noSlot => exact (State.formAnswer_slotted hown i r t0).trans (if_neg (Nat.not_lt.mpr hge))
  case free => exact State.formAnswer_free hown i r t0

/-! ### Slots (R57) -/

theorem isResponse_iff (c : Code) : isResponse c = true ↔ 1 ≤ c.val ∧ c.val ≤ 5 := by simp [isResponse]

theorem toCode_self (k : Code) : toCode k.val = k := Fin.ext (Nat.mod_eq_of_lt k.isLt)

/-- The entry of a slot in which something was heard (R57). -/
theorem slotEntry_eq (k : Code) {chars : List RxChar} (h : chars ≠ []) :
    slotEntry k.val chars = some { station := k, response :=
      match chars with
      | [a, b] => if b.code.val = k.val ∧ isResponse a.code = true ∧ a.damaged = false ∧ b.damaged = false then a.code else 0
      | _ => 0 } := by
  match chars, h with
  | [a], _ => simp [slotEntry, toCode_self]
  | [a, b], _ =>
    simp only [slotEntry, toCode_self]
    split <;> rfl
  | a :: b :: c :: rest, _ => simp [slotEntry, toCode_self]

/-! ### The merged list (R59) -/

/-- In strict order of station number. -/
abbrev Ordered (l : List AnswerEntry) : Prop := l.Pairwise fun a b => a.station < b.station

theorem mem_mergeEntry {e x : AnswerEntry} {l : List AnswerEntry} (h : x ∈ mergeEntry e l) : x = e ∨ x ∈ l := by
  induction l with
  | nil => simpa [mergeEntry] using h
  | cons a l ih =>
    simp only [mergeEntry] at h
    split at h
    · simp only [List.mem_cons] at h ⊢
      tauto
    · split at h
      · simp only [List.mem_cons] at h ⊢
        tauto
      · simp only [List.mem_cons] at h ⊢
        rcases h with h | h
        · tauto
        · have := ih h
          tauto

theorem mergeEntry_ordered (e : AnswerEntry) {l : List AnswerEntry} (h : Ordered l) : Ordered (mergeEntry e l) := by
  induction l with
  | nil => exact List.pairwise_singleton ..
  | cons a l ih =>
    obtain ⟨ha, hl⟩ := List.pairwise_cons.mp h
    simp only [mergeEntry]
    split
    · rename_i hs
      exact List.pairwise_cons.mpr ⟨fun x hx => hs ▸ ha x hx, hl⟩
    · rename_i hne
      split
      · rename_i hlt
        refine List.pairwise_cons.mpr ⟨fun x hx => ?_, h⟩
        rcases List.mem_cons.mp hx with rfl | hx
        · exact hlt
        · exact hlt.trans (ha x hx)
      · rename_i hge
        refine List.pairwise_cons.mpr ⟨fun x hx => ?_, ih hl⟩
        rcases mem_mergeEntry hx with rfl | hx
        · exact lt_of_le_of_ne (not_lt.mp hge) (Ne.symm hne)
        · exact ha x hx

/-- An entry of an ordered list stands alone under its station. -/
theorem find?_mergeEntry (e : AnswerEntry) {l : List AnswerEntry} (h : Ordered l) (station : Code) :
    (mergeEntry e l).find? (·.station == station) =
      if e.station = station then some e else l.find? (·.station == station) := by
  induction l with
  | nil =>
    simp only [mergeEntry, List.find?_cons, List.find?_nil]
    by_cases hs : e.station = station
    · simp [hs]
    · simp [beq_eq_false_iff_ne.mpr hs, hs]
  | cons a l ih =>
    obtain ⟨ha, hl⟩ := List.pairwise_cons.mp h
    simp only [mergeEntry]
    split
    · rename_i heq
      by_cases hs : e.station = station
      · simp [hs]
      · have ha' : ¬ a.station = station := heq ▸ hs
        simp [beq_eq_false_iff_ne.mpr hs, beq_eq_false_iff_ne.mpr ha', hs]
    · rename_i hne
      split
      · by_cases hs : e.station = station <;> simp [List.find?_cons, hs]
      · rw [List.find?_cons, ih hl]
        by_cases hs : e.station = station
        · have ha' : ¬ a.station = station := fun h => hne (hs.trans h.symm)
          simp [beq_eq_false_iff_ne.mpr ha', hs]
        · simp [hs, List.find?_cons]

theorem mergeEntries_spec (entries : List AnswerEntry) {l : List AnswerEntry} (h : Ordered l) :
    Ordered (mergeEntries entries l) ∧ ∀ station : Code,
      (mergeEntries entries l).find? (·.station == station) =
        match entries.reverse.find? (·.station == station) with
        | some e => some e
        | none => l.find? (·.station == station) := by
  induction entries generalizing l with
  | nil => exact ⟨h, fun _ => rfl⟩
  | cons e entries ih =>
    obtain ⟨hord, hfind⟩ := ih (mergeEntry_ordered e h)
    refine ⟨hord, fun station => ?_⟩
    have hfold : mergeEntries (e :: entries) l = mergeEntries entries (mergeEntry e l) := rfl
    rw [hfold, hfind, find?_mergeEntry e h, List.reverse_cons, List.find?_append]
    cases entries.reverse.find? (·.station == station) with
    | some x => rfl
    | none =>
      by_cases hs : e.station = station <;> simp [hs]

/-! ### The one answer of a free phase (R58) -/

/-- What the codes behind response and station number carry, if they have the length that the response and
the kind require. -/
def freeContent (kind r : Code) (rest : List Code) : Option Content :=
  if r = 1 ∨ r = 2 then answerContent kind rest else if rest = [] then some .none else none

theorem freeAnswer_of_damaged (kind : Code) {heard : List RxChar} (h : ∃ c ∈ heard, c.damaged = true) :
    freeAnswer kind heard = .garbled := by
  obtain ⟨c, hc, hd⟩ := h
  match heard with
  | [] => simp at hc
  | [a] => rfl
  | a :: b :: rest =>
    have hall : ((a :: b :: rest).all fun c => !c.damaged) = false :=
      List.all_eq_false.mpr ⟨c, hc, by simp [hd]⟩
    simp only [freeAnswer, hall, Bool.false_and]
    rfl

theorem freeAnswer_of_undamaged (kind : Code) (a b : RxChar) (rest : List RxChar)
    (h : ∀ c ∈ a :: b :: rest, c.damaged = false) : freeAnswer kind (a :: b :: rest) =
      if 1 ≤ a.code.val ∧ a.code.val ≤ 5 ∧ b.code.val ≤ 30 then
        match freeContent kind a.code (rest.map RxChar.code) with
        | some content => .valid { station := b.code, response := a.code } content
        | none => .garbled
      else .garbled := by
  have hall : ((a :: b :: rest).all fun c => !c.damaged) = true := by
    rw [List.all_eq_true]
    exact fun c hc => by simp [h c hc]
  have hcond : ((a :: b :: rest).all (fun c => !c.damaged) && isResponse a.code && decide (b.code.val ≤ 30)) = true ↔
      1 ≤ a.code.val ∧ a.code.val ≤ 5 ∧ b.code.val ≤ 30 := by
    simp [hall, isResponse_iff, and_assoc]
  simp only [freeAnswer, hcond, freeContent]
  by_cases hr : a.code = 1 ∨ a.code = 2
  · simp only [if_pos hr] <;> rfl
  · by_cases hn : rest = [] <;> simp [hr, hn]

/-- The further codes have the length that the response and the kind require. -/
def Whole (kind r : Code) (rest : List Code) : Prop :=
  ((r = 1 ∨ r = 2) ∧ kind = 4 ∧ ∃ n codes, rest = n :: codes ∧ 1 ≤ n.val ∧ n.val ≤ 20 ∧ codes.length = n.val) ∨
  ((r = 1 ∨ r = 2) ∧ kind = 5 ∧ rest.length = 6) ∨
  ((r = 1 ∨ r = 2 → kind ≠ 4 ∧ kind ≠ 5) ∧ rest = [])

theorem freeContent_of_whole {kind r : Code} {rest : List Code} (h : Whole kind r rest) :
    freeContent kind r rest = some
      (if (r = 1 ∨ r = 2) ∧ kind = 4 then .answerBack rest.tail
       else if (r = 1 ∨ r = 2) ∧ kind = 5 then .status rest else .none) := by
  rcases h with ⟨hr, hk, n, codes, rfl, h1, h2, hl⟩ | ⟨hr, hk, hl⟩ | ⟨hk, rfl⟩
  · subst hk
    simp [freeContent, answerContent, hr, h1, h2, hl]
  · subst hk
    simp [freeContent, answerContent, hr, hl]
  · by_cases hr : r = 1 ∨ r = 2
    · simp [freeContent, answerContent, hr, hk hr]
    · simp [freeContent, hr]

theorem freeContent_of_not_whole {kind r : Code} {rest : List Code} (h : ¬ Whole kind r rest) :
    freeContent kind r rest = none := by
  simp only [Whole, not_or, not_and] at h
  obtain ⟨henquiry, hstatus, hplain⟩ := h
  by_cases hr : r = 1 ∨ r = 2
  · simp only [freeContent, if_pos hr, answerContent]
    by_cases h4 : kind = 4
    · rw [if_pos h4]
      match rest with
      | [] => rfl
      | n :: codes => exact if_neg fun hn => henquiry hr h4 ⟨n, codes, rfl, hn⟩
    · rw [if_neg h4]
      by_cases h5 : kind = 5
      · rw [if_pos h5]
        exact if_neg (hstatus hr h5)
      · rw [if_neg h5]
        exact if_neg (hplain fun _ => ⟨h4, h5⟩)
  · rw [freeContent, if_neg hr]
    exact if_neg (hplain fun h => absurd h hr)

/-! ### The entries of a phase -/

theorem mem_slotted_iff (p : Params) (m : Message) (t0 : Ticks) (heard : List RxChar) (e : AnswerEntry) :
    e ∈ phaseEntries p m { t0 := t0, isFree := false } heard ↔
      ∃ k, k < p.slots ∧ slotEntry k (slotChars t0 (3 * p.charTime) k heard) = some e := by
  have h : phaseEntries p m { t0 := t0, isFree := false } heard =
      (List.range p.slots).filterMap fun k => slotEntry k (slotChars t0 (3 * p.charTime) k heard) := rfl
  simp [h]

theorem free_of_garbled {p : Params} {m : Message} {t0 : Ticks} {heard : List RxChar}
    (h : freeAnswer m.kind heard = .garbled) : freeAnswer m.kind heard = .garbled ∧
      phaseEntries p m { t0 := t0, isFree := true } heard = [{ station := m.station, response := 0 }] :=
  ⟨h, by simp [phaseEntries, h]⟩

theorem free_of_valid {p : Params} {m : Message} {t0 : Ticks} {heard : List RxChar} {e : AnswerEntry} {c : Content}
    (h : freeAnswer m.kind heard = .valid e c) : freeAnswer m.kind heard = .valid e c ∧
      phaseEntries p m { t0 := t0, isFree := true } heard = [e] :=
  ⟨h, by simp [phaseEntries, h]⟩

/-- A slot of two undamaged characters, a response and the slot's own number. -/
def GoodSlot (k : Code) (chars : List RxChar) : Prop :=
  ∃ a b : RxChar, chars = [a, b] ∧ a.damaged = false ∧ b.damaged = false ∧
    1 ≤ a.code.val ∧ a.code.val ≤ 5 ∧ b.code = k

theorem slotEntry_of_good {k : Code} {chars : List RxChar} (h : GoodSlot k chars) :
    slotEntry k.val chars = some { station := k, response := (chars.map RxChar.code).headD 0 } := by
  obtain ⟨a, b, rfl, ha, hb, h1, h5, rfl⟩ := h
  simp [slotEntry_eq, isResponse_iff, ha, hb, h1, h5]

theorem slotEntry_of_not_good {k : Code} {chars : List RxChar} (hne : chars ≠ []) (h : ¬ GoodSlot k chars) :
    slotEntry k.val chars = some { station := k, response := 0 } := by
  rw [slotEntry_eq k hne]
  match chars, h with
  | [], _ => rfl
  | [a], _ => rfl
  | [a, b], h =>
    have hno : ¬ (b.code.val = k.val ∧ isResponse a.code = true ∧ a.damaged = false ∧ b.damaged = false) :=
      fun ⟨hk, hr, ha, hb⟩ => h ⟨a, b, rfl, ha, hb, ((isResponse_iff _).mp hr).1, ((isResponse_iff _).mp hr).2, Fin.ext hk⟩
    simp only [if_neg hno]
  | a :: b :: c :: rest, _ => rfl

/-- Settles O43: slots, the free answer and the merged list. -/
theorem answersAreCollected : Obligations.AnswersAreCollected := by
  refine ⟨fun t0 slot k heard c => ?chars, fun _ => rfl, fun k chars hne =>
    ⟨fun hg => slotEntry_of_good hg, fun hg => slotEntry_of_not_good hne hg⟩, mem_slotted_iff,
    fun p m t0 heard => ⟨fun h => ?silent, fun h => free_of_garbled ?garbled, fun r k rest hcodes hall =>
      ⟨fun h1 h5 h30 hwhole => free_of_valid ?valid, fun hno => free_of_garbled ?other⟩⟩,
    fun list entries h => mergeEntries_spec entries h⟩
  case chars => simp [slotChars]
  case silent => subst h; exact ⟨rfl, rfl⟩
  case garbled =>
    rcases h with h | h
    · obtain ⟨a, rfl⟩ := List.length_eq_one_iff.mp h
      rfl
    · exact freeAnswer_of_damaged _ h
  all_goals
    match heard, hcodes with
    | a :: b :: heard, hcodes => ?_
  case valid =>
    obtain ⟨rfl, rfl, rfl⟩ : a.code = r ∧ b.code = k ∧ heard.map RxChar.code = rest := by simpa using hcodes
    rw [freeAnswer_of_undamaged _ a b heard hall, if_pos ⟨h1, h5, h30⟩, freeContent_of_whole hwhole]
  case other =>
    obtain ⟨rfl, rfl, rfl⟩ : a.code = r ∧ b.code = k ∧ heard.map RxChar.code = rest := by simpa using hcodes
    rw [freeAnswer_of_undamaged _ a b heard hall]
    by_cases hrange : 1 ≤ a.code.val ∧ a.code.val ≤ 5 ∧ b.code.val ≤ 30
    · have hw : ¬ Whole m.kind a.code (heard.map RxChar.code) :=
        fun hw => hno ⟨hrange.1, hrange.2.1, hrange.2.2, hw⟩
      rw [if_pos hrange, freeContent_of_not_whole hw]
    · exact if_neg hrange

end Sys2Proof.Machine
end

section
/-! Silence, breaks and the ends of answer phases (R11, R12, R16, R20, R21, R34, R52 to R54, R59 to R63). -/

namespace Sys2Proof.Machine

open Sys2Proof

/-! ### The early end of a message -/

/-- A CONTROL held in the text is completed with function 0 (R4, R21). -/
def State.heldCompleted (s : State) : State :=
  match s.listener.state, s.listener.held with
  | .text, some h => (s.matchText h).matchText { h with code := 0, damaged := false }
  | _, _ => s

theorem State.heldCompleted_run (s : State) : OnlyRun s s.heldCompleted := by
  unfold State.heldCompleted
  split
  · exact (s.matchText_run _).trans (State.matchText_run _ _)
  · exact .refl s

theorem State.writeGap_matcherState (s : State) : s.writeGap.matcher.state = s.matcher.state := by
  unfold State.writeGap
  split
  · rfl
  · split <;> rfl

theorem State.matchText_matcherState (s : State) (c : RxChar) : (s.matchText c).matcher.state = s.matcher.state := by
  have hw (s : State) (e : Entry) : (s.receiveWrite e).matcher.state = s.matcher.state := by
    unfold State.receiveWrite
    dsimp only
    split <;> exact s.writeGap_matcherState
  unfold State.matchText
  split
  · rename_i i hcalled hi
    dsimp only
    split
    · exact hw _ _
    · rfl
    · rfl
  · rfl

theorem State.heldCompleted_matcherState (s : State) : s.heldCompleted.matcher.state = s.matcher.state := by
  unfold State.heldCompleted
  split
  · rw [State.matchText_matcherState, State.matchText_matcherState]
  · rfl

theorem State.messageOver_eq (s : State) (d : Nat) (o : InOutcome) (next : ListenerState) :
    s.messageOver d o next = (s.heldCompleted.matchBroken d o).onListener fun l => { l.drop with state := next } := rfl

theorem State.heldCompleted_of_idle {s : State} (h : s.matcher.state ≠ .called) : s.heldCompleted = s := by
  unfold State.heldCompleted
  split
  · rw [State.matchText_of_idle h, State.matchText_of_idle h]
  · rfl

theorem State.messageOver_of_idle {s : State} (h : s.matcher.state ≠ .called) (d : Nat) (o : InOutcome)
    (next : ListenerState) : s.messageOver d o next = s.onListener fun l => { l.drop with state := next } := by
  rw [State.messageOver_eq, State.heldCompleted_of_idle h, State.matchBroken_of_idle h]

/-- A message that calls this station and ends early: what was handed on of it decides the record (R21, R80, R81). -/
theorem State.messageOver_of_called {s : State} {i : Incoming} (h : s.matcher.state = .called)
    (hi : s.heldCompleted.matcher.incoming = some i) (d : Nat) (o : InOutcome) (next : ListenerState) :
    s.messageOver d o next =
      let closed := s.heldCompleted.closeReceiveRun (some d)
      { closed with
        listener := { s.listener.drop with state := next }
        log := s.log.finishIn i.logNumber o i.chars i.lost
        matcher := { closed.matcher with state := .idle, incoming := none, answer := none } } := by
  have hs : s.heldCompleted.matcher.state = .called := s.heldCompleted_matcherState.trans h
  obtain ⟨m, x, hrun⟩ := s.heldCompleted_run
  obtain ⟨n, y, hclose⟩ := s.heldCompleted.closeReceiveRun_run (some d)
  have hlog : s.heldCompleted.log = s.log := by rw [hrun]
  have hl : (s.heldCompleted.closeReceiveRun (some d)).listener = s.listener := by rw [hclose, hrun]
  rw [State.messageOver_eq, State.matchBroken_of_called hs hi, hlog]
  simp only [State.onListener, hl]

/-! ### The end of a phase -/

theorem State.phaseJudged_alone {s : State} (h : s.active = none ∨ s.transmitter.attempt.bind Attempt.phase = none) :
    s.phaseJudged = s := by
  unfold State.phaseJudged
  split
  · rename_i m ph hm hph
    rcases h with h | h
    · exact absurd (h.symm.trans hm) nofun
    · exact absurd (h.symm.trans hph) nofun
  · rfl

theorem State.phaseJudged_sending {s : State} {m : Message} {ph : Phase} (hm : s.active = some m)
    (hstate : m.state = .sending) (hph : s.transmitter.attempt.bind Attempt.phase = some ph) :
    s.phaseJudged = { s with transmitter := { s.transmitter with
      attempt := s.transmitter.attempt.map fun a => { a with phaseOver := true } } } := by
  simp [State.phaseJudged, hm, hph, hstate]

theorem State.phaseJudged_answering {s : State} {m : Message} {ph : Phase} (hm : s.active = some m)
    (hstate : m.state = .answering) (hph : s.transmitter.attempt.bind Attempt.phase = some ph) :
    s.phaseJudged = match judge s.loader.params m ph s.transmitter.heard with
      | .settled o content => (s.phaseMerged m ph).finishMessage o content
      | .retry => (s.phaseMerged m ph).contendAgain fun m => { m with retries := m.retries + 1 } := by
  simp only [State.phaseJudged, hm, hph, hstate, if_true, State.phaseMerged] <;> rfl

theorem State.phaseJudged_matcher (s : State) : s.phaseJudged.matcher = s.matcher := by
  obtain ⟨_, _, _, _, _, h⟩ := s.phaseJudged_frame
  rw [h]

/-- The state in which the listener has left the phase, before the end is reported (R20). -/
def State.phaseLeft (s : State) (t : Ticks) (next : ListenerState) : State :=
  { s with listener := { s.listener with state := next, phaseEnd := some t, held := none } }

theorem State.phaseOver_alone {s : State} (t : Ticks) (next : ListenerState)
    (h : s.active = none ∨ s.transmitter.attempt.bind Attempt.phase = none) : s.phaseOver t next =
      if s.matcher.state = .due then
        { s.phaseLeft t next with matcher := { s.matcher with state := .idle, answer := none } }
      else s.phaseLeft t next := by
  have hj : (s.phaseLeft t next).phaseJudged = s.phaseLeft t next := State.phaseJudged_alone h
  change (s.phaseLeft t next).phaseJudged.answerPhaseOver = _
  rw [hj]
  rfl

theorem State.phaseOver_judged {s : State} (t : Ticks) (next : ListenerState) (h : s.matcher.state ≠ .due) :
    s.phaseOver t next = (s.phaseLeft t next).phaseJudged :=
  if_neg fun hdue => h (((congrArg Matcher.state (State.phaseJudged_matcher (s.phaseLeft t next))).symm.trans hdue))

/-! ### Silence -/

theorem exec_markLastingQ {s : State} {date : Ticks} (hl : s.receiver.level = some .mark)
    (hd : s.receiver.markDate = some date) :
    exec .markLastingQ s = perform s (!s.receiver.quietReported) fun s =>
      (s.at (date + s.loader.params.quietTime)).quietReached date := by
  simp only [exec, execMarkLastingQ, hl, hd]

/-- The state in which Q is reported: NORMAL (R34). -/
def State.quieted (s : State) (date : Ticks) : State :=
  { s.at (date + s.loader.params.quietTime) with
    receiver := { s.receiver with quietReported := true, lineOpen := false } }

theorem State.listenerQuiet_quietWait {s : State} (h : s.listener.state = .quietWait) (date t : Ticks) :
    s.listenerQuiet date t = { s with listener := { s.listener with state := .idle } } := by
  simp only [State.listenerQuiet, h, State.onListener]

theorem State.listenerQuiet_idle {s : State} (h : s.listener.state = .idle) (date t : Ticks) :
    s.listenerQuiet date t = { s with listener := { s.listener with held := none } } := by
  unfold State.listenerQuiet
  rw [h]
  rfl

theorem State.listenerQuiet_slotted {s : State} (h : s.listener.state = .slottedAnswers) (date t : Ticks) :
    s.listenerQuiet date t = s := by
  simp only [State.listenerQuiet, h]

theorem State.listenerQuiet_free {s : State} (h : s.listener.state = .freeAnswer) (date t : Ticks) :
    s.listenerQuiet date t = if s.listener.t0 < date then s.phaseOver t .idle else s := by
  simp only [State.listenerQuiet, h]

theorem State.listenerQuiet_message {s : State}
    (h : s.listener.state = .header ∨ s.listener.state = .text ∨ s.listener.state = .check) (date t : Ticks) :
    s.listenerQuiet date t = s.messageOver 8 .broken .idle := by
  rcases h with h | h | h <;> simp only [State.listenerQuiet, h]

/-- Settles O40: the report by the listener's state, the message that breaks off by whether it calls this
station. -/
theorem silenceEndsWhatIsInProgress : Obligations.SilenceEndsWhatIsInProgress := by
  refine fun s date hw hlevel hdate => ⟨fun hrep => ?reported, fun hrep => ?silent⟩
  case reported =>
    rw [exec_markLastingQ hlevel hdate]
    exact perform_no (by simp [hrep])
  have hans {t : State} (h : (s.quieted date).listenerQuiet date (s.quieted date).now = t) :
      Answers .markLastingQ s fun u => u = t.settle :=
    answers_of_perform (exec_markLastingQ hlevel hdate) hw (by simp [hrep]) (congrArg State.settle h)
  refine ⟨fun hs => hans (State.listenerQuiet_quietWait (s := s.quieted date) hs ..), fun hs => hans (State.listenerQuiet_idle (s := s.quieted date) hs ..),
    fun hs => hans (State.listenerQuiet_slotted (s := s.quieted date) hs ..), fun hs ht => hans ?before, fun hs ht hph => hans ?alone,
    fun hs ht => hans ?free, fun hs => ⟨fun hm => hans ?broken, fun i hm hi => hans ?called⟩⟩
  case before => exact (State.listenerQuiet_free (s := s.quieted date) hs ..).trans (if_neg (Nat.not_lt.mpr ht))
  case free => exact (State.listenerQuiet_free (s := s.quieted date) hs ..).trans (if_pos ht)
  case alone =>
    refine (State.listenerQuiet_free (s := s.quieted date) hs ..).trans ((if_pos ht).trans
      ((State.phaseOver_alone (s := s.quieted date) _ _ (.inr hph)).trans ?_))
    by_cases hdue : s.matcher.state = .due
    · exact (if_pos hdue).trans (by simp only [if_pos hdue]; rfl)
    · exact (if_neg hdue).trans (by simp only [if_neg hdue]; rfl)
  case broken =>
    exact (State.listenerQuiet_message (s := s.quieted date) hs ..).trans (State.messageOver_of_idle (s := s.quieted date) hm ..)
  case called =>
    exact (State.listenerQuiet_message (s := s.quieted date) hs ..).trans (State.messageOver_of_called (s := s.quieted date) hm hi ..)

/-! ### The end of an answer phase by its time -/

theorem State.phaseMerged_left (s : State) (t : Ticks) (next : ListenerState) (m : Message) (ph : Phase) :
    (s.phaseLeft t next).phaseMerged m ph = (s.phaseMerged m ph).phaseLeft t next := rfl

theorem exec_slottedPhaseEnd (s : State) : exec .slottedPhaseEnd s =
    perform s (s.listener.state == .slottedAnswers) fun s' =>
      ((s'.at (s'.listener.t0 + s'.loader.params.slots * s'.loader.params.slot)).phaseOver
        (s'.listener.t0 + s'.loader.params.slots * s'.loader.params.slot) .idle).settle := rfl

theorem exec_freePhaseTimeout (s : State) : exec .freePhaseTimeout s =
    perform s (s.listener.state == .freeAnswer && !s.listener.startSeen && !s.startPending) fun s' =>
      ((s'.at (s'.listener.t0 + s'.loader.params.slot)).phaseOver
        (s'.listener.t0 + s'.loader.params.slot) .idle).settle := rfl

/-- Settles O42: the report by whose phase it is. -/
theorem answerPhasesEnd : Obligations.AnswerPhasesEnd := by
  refine fun s c ends hw => ⟨fun hc hs => ?slotted, fun hc hs => ?free, fun hends => ?ended⟩
  case slotted =>
    rw [hc, exec_slottedPhaseEnd]
    exact perform_no (by simp [hs])
  case free =>
    rw [hc, exec_freePhaseTimeout]
    refine perform_no ?_
    rcases hs with hs | hs | ⟨start, paused, bits, hasm, hlt⟩
    · simp [hs]
    · simp [hs]
    · by_cases hfree : s.listener.state = .freeAnswer
      · have hp : s.startPending = true := by
          simp only [State.startPending, hasm, State.startsInPhase, hfree, beq_self_eq_true, Bool.true_and]
          exact decide_eq_true hlt
        simp [hp]
      · simp [hfree]
  have hans {t : State} (h : (s.at ends).phaseOver ends .idle = t) : Answers c s fun u => u = t.settle := by
    rcases hends with ⟨rfl, hs, rfl⟩ | ⟨rfl, hs, hseen, hpend, rfl⟩
    · exact answers_of_perform (exec_slottedPhaseEnd s) hw (by simp [hs]) (congrArg State.settle h)
    · have hp : s.startPending = false := by
        unfold State.startPending
        split
        · rename_i start paused bits hasm
          have := hpend start paused bits hasm
          simp only [State.startsInPhase, hs, beq_self_eq_true, Bool.true_and]
          exact decide_eq_false (Nat.not_lt.mpr this)
        · rfl
      exact answers_of_perform (exec_freePhaseTimeout s) hw (by simp [hs, hseen, hp]) (congrArg State.settle h)
  refine ⟨fun hph => hans ?alone, fun m ph hdue hm hstate hph => hans ?sending,
    fun m ph hdue hm hstate hph => hans ?answering⟩
  case alone =>
    refine (State.phaseOver_alone (s := s.at ends) _ _ (.inr hph)).trans ?_
    by_cases hdue : s.matcher.state = .due
    · exact (if_pos hdue).trans (by simp only [if_pos hdue]; rfl)
    · exact (if_neg hdue).trans (by simp only [if_neg hdue]; rfl)
  case sending =>
    exact (State.phaseOver_judged (s := s.at ends) _ _ hdue).trans
      (State.phaseJudged_sending (s := (s.at ends).phaseLeft ends .idle) hm hstate hph)
  case answering =>
    refine (State.phaseOver_judged (s := s.at ends) _ _ hdue).trans
      ((State.phaseJudged_answering (s := (s.at ends).phaseLeft ends .idle) hm hstate hph).trans ?_)
    simp only [State.phaseMerged]
    rfl

end Sys2Proof.Machine
end

section
/-! The one active record, and what breaks the line takes from it (R32, R34, R45, R52, R54). -/

namespace Sys2Proof.Machine

open Sys2Proof

/-! ### The elements of a changed list -/

/-- The change of the first element that passes the test, seen from that element. -/
theorem onFirst_cases {α : Type} (q : α → Bool) (f : α → α) (l : List α) :
    ((∀ a ∈ l, q a = false) ∧ onFirst q f l = l) ∨
      ∃ l₁ a l₂, l = l₁ ++ a :: l₂ ∧ q a = true ∧ onFirst q f l = l₁ ++ f a :: l₂ := by
  induction l with
  | nil => exact .inl ⟨by simp, rfl⟩
  | cons a l ih =>
    simp only [onFirst]
    cases ha : q a with
    | true => exact .inr ⟨[], a, l, rfl, ha, by simp⟩
    | false =>
      rcases ih with ⟨hnone, h⟩ | ⟨l₁, b, l₂, rfl, hb, h⟩
      · exact .inl ⟨by simpa [ha] using hnone, by simp [h]⟩
      · exact .inr ⟨a :: l₁, b, l₂, rfl, hb, by simp [h]⟩

theorem countP_onFirst_le {α : Type} {p q : α → Bool} {f : α → α} (l : List α)
    (h : ∀ a, q a = true → p (f a) = true → p a = true) : (onFirst q f l).countP p ≤ l.countP p := by
  rcases onFirst_cases q f l with ⟨-, h'⟩ | ⟨l₁, a, l₂, rfl, ha, h'⟩
  · rw [h']
  · rw [h']
    have hle : (if p (f a) = true then 1 else 0) ≤ (if p a = true then 1 else 0) := by
      by_cases hf : p (f a) = true <;> simp [hf, h a ha]
    simp only [List.countP_append, List.countP_cons]
    omega

/-- A change of one element adds at most one. -/
theorem countP_onFirst_le_succ {α : Type} (p q : α → Bool) (f : α → α) (l : List α) :
    (onFirst q f l).countP p ≤ l.countP p + 1 := by
  rcases onFirst_cases q f l with ⟨-, h'⟩ | ⟨l₁, a, l₂, rfl, ha, h'⟩
  · rw [h']; omega
  · rw [h']
    simp only [List.countP_append, List.countP_cons]
    split <;> omega

/-- The one element that passes the test is the one that changes. -/
theorem mem_onFirst_of_unique {α : Type} {q : α → Bool} {f : α → α} {l : List α} {b : α}
    (hl : l.countP q ≤ 1) (h : b ∈ onFirst q f l) : q b = false ∨ ∃ a, b = f a := by
  rcases onFirst_cases q f l with ⟨hnone, h'⟩ | ⟨l₁, a, l₂, rfl, ha, h'⟩
  · exact .inl (hnone b (h' ▸ h))
  · have hcount : l₁.countP q = 0 ∧ l₂.countP q = 0 := by
      simp only [List.countP_append, List.countP_cons, ha, if_true] at hl
      omega
    rw [h'] at h
    simp only [List.mem_append, List.mem_cons] at h
    rcases h with h | rfl | h
    · exact .inl (Bool.eq_false_iff.mpr (List.countP_eq_zero.mp hcount.1 b h))
    · exact .inr ⟨a, rfl⟩
    · exact .inl (Bool.eq_false_iff.mpr (List.countP_eq_zero.mp hcount.2 b h))

/-! ### Records by their state -/

theorem OutRecord.inState_iff (st : MessageState) (r : OutRecord) :
    r.inState st = true ↔ ∃ m, r.message = some m ∧ m.state = st := by
  obtain ⟨start, length, progress, copied, body⟩ := r
  cases body <;> simp [OutRecord.inState, OutRecord.message]

theorem OutRecord.isActive_iff (r : OutRecord) : r.isActive = true ↔
    ∃ m, r.message = some m ∧ (m.state = .contending ∨ m.state = .sending ∨ m.state = .answering) := by
  simp only [OutRecord.isActive, Bool.or_eq_true, OutRecord.inState_iff]
  constructor
  · rintro ((⟨m, hm, h⟩ | ⟨m, hm, h⟩) | ⟨m, hm, h⟩)
    · exact ⟨m, hm, .inl h⟩
    · exact ⟨m, hm, .inr (.inl h)⟩
    · exact ⟨m, hm, .inr (.inr h)⟩
  · rintro ⟨m, hm, h | h | h⟩
    · exact .inl (.inl ⟨m, hm, h⟩)
    · exact .inl (.inr ⟨m, hm, h⟩)
    · exact .inr ⟨m, hm, h⟩

theorem OutRecord.inState_sending_of_inactive {r : OutRecord} (h : r.isActive = false) : r.inState .sending = false := by
  simp only [OutRecord.isActive, Bool.or_eq_false_iff] at h
  exact h.1.2

/-- A record whose message is set to a state is in no other state. -/
theorem OutRecord.not_inState_withMessage {st : MessageState} {f : Message → Message}
    (h : ∀ m, (f m).state ≠ st) (r : OutRecord) : (r.withMessage f).inState st = false := by
  rw [← Bool.not_eq_true, OutRecord.inState_iff, OutRecord.message_withMessage]
  rintro ⟨m, hm, hst⟩
  obtain ⟨x, -, rfl⟩ := Option.map_eq_some_iff.mp hm
  exact h x hst

theorem OutRecord.not_isActive_withMessage {f : Message → Message}
    (h : ∀ m, (f m).state ≠ .contending ∧ (f m).state ≠ .sending ∧ (f m).state ≠ .answering) (r : OutRecord) :
    (r.withMessage f).isActive = false := by
  have hst (st : MessageState) (hne : ∀ m, (f m).state ≠ st) := OutRecord.not_inState_withMessage hne r
  simp only [OutRecord.isActive, hst _ fun m => (h m).1, hst _ fun m => (h m).2.1, hst _ fun m => (h m).2.2,
    Bool.or_false]

/-! ### A final outcome leaves nothing SENDING -/

/-- No record is SENDING. -/
def NoneSending (table : List OutRecord) : Prop := ∀ r ∈ table, r.inState .sending = false

theorem State.sendingNow_of_none {s : State} (h : NoneSending s.table) : s.sendingNow = false := by
  rw [← Bool.not_eq_true, State.sendingNow, Option.any_eq_true]
  rintro ⟨m, hm, hst⟩
  obtain ⟨r, hr, hrm⟩ := Option.bind_eq_some_iff.mp hm
  have := h r (List.mem_of_find?_eq_some hr)
  rw [← Bool.not_eq_true] at this
  exact this ((OutRecord.inState_iff _ r).mpr ⟨m, hrm, by simpa using hst⟩)

theorem NoneSending.activate {s : State} (h : NoneSending s.table) : NoneSending s.activate.table := by
  rw [State.activate_eq]
  dsimp only
  split
  · exact h
  · intro r hr
    rcases mem_onFirst hr with hr | ⟨x, -, -, rfl⟩
    · exact h r hr
    · exact OutRecord.not_inState_withMessage (by simp) x

theorem NoneSending.giveBack {s : State} (h : NoneSending s.table) : NoneSending s.giveBack.table :=
  fun r hr => h r (List.mem_of_mem_drop hr)

theorem State.finishMessage_none_sending {s : State} (h : s.table.countP OutRecord.isActive ≤ 1) {m : Message}
    (hm : s.active = some m) (o : OutOutcome) (content : Content) :
    NoneSending (s.finishMessage o content).table := by
  rw [State.finishMessage_eq hm]
  refine NoneSending.giveBack (NoneSending.activate ?_)
  rw [State.post_table]
  intro r hr
  rcases mem_onFirst_of_unique h hr with hr | ⟨x, rfl⟩
  · exact OutRecord.inState_sending_of_inactive hr
  · exact OutRecord.not_inState_withMessage (by simp) x

theorem State.contendAgain_none_sending {s : State} (h : s.table.countP OutRecord.isActive ≤ 1)
    (f : Message → Message) : NoneSending (s.contendAgain f).table := by
  intro r hr
  rcases mem_onFirst_of_unique h hr with hr | ⟨x, rfl⟩
  · exact OutRecord.inState_sending_of_inactive hr
  · exact OutRecord.not_inState_withMessage (by simp) x

/-- A change that keeps the state keeps the record active. -/
theorem OutRecord.isActive_withMessage_of_state {f : Message → Message} (h : ∀ m, (f m).state = m.state) (r : OutRecord) :
    (r.withMessage f).isActive = r.isActive := by
  obtain ⟨start, length, progress, copied, body⟩ := r
  cases body with
  | message m => simp only [OutRecord.isActive, OutRecord.inState, OutRecord.withMessage, h m]
  | text isOpen => rfl

theorem State.phaseMerged_count (s : State) (m : Message) (ph : Phase) :
    (s.phaseMerged m ph).table.countP OutRecord.isActive ≤ s.table.countP OutRecord.isActive :=
  countP_onFirst_le _ fun _ hr _ => hr

theorem State.active_phaseMerged {s : State} {m : Message} (hm : s.active = some m) (x : Message) (ph : Phase) :
    ∃ m', (s.phaseMerged x ph).active = some m' := by
  rw [State.phaseMerged, State.active_onActive fun r hr => (OutRecord.isActive_withMessage_of_state (by simp) r).trans hr, hm]
  exact ⟨_, rfl⟩

/-- A judgement leaves nothing SENDING. -/
theorem State.phaseJudged_none_sending {s : State} (h : s.table.countP OutRecord.isActive ≤ 1) {m : Message} {ph : Phase}
    (hm : s.active = some m) (hstate : m.state = .answering)
    (hph : s.transmitter.attempt.bind Attempt.phase = some ph) : NoneSending s.phaseJudged.table := by
  have hcount := (s.phaseMerged_count m ph).trans h
  rw [State.phaseJudged_answering hm hstate hph]
  split
  · obtain ⟨m', hm'⟩ := State.active_phaseMerged hm m ph
    exact State.finishMessage_none_sending hcount hm' _ _
  · exact State.contendAgain_none_sending hcount _

/-- A report of the phase's end either leaves the table or leaves nothing SENDING. -/
theorem State.phaseJudged_table (s : State) (h : s.table.countP OutRecord.isActive ≤ 1) :
    s.phaseJudged.table = s.table ∨ NoneSending s.phaseJudged.table := by
  cases hm : s.active with
  | none => exact .inl (by rw [State.phaseJudged_alone (.inl hm)])
  | some m =>
    cases hph : s.transmitter.attempt.bind Attempt.phase with
    | none => exact .inl (by rw [State.phaseJudged_alone (.inr hph)])
    | some ph =>
      by_cases hstate : m.state = .answering
      · exact .inr (State.phaseJudged_none_sending h hm hstate hph)
      · refine .inl ?_
        simp only [State.phaseJudged, hm, hph, if_neg hstate]
        split <;> rfl

/-! ### Breaks -/

/-- The instant of a break event or of LINE-OPEN, by the date of the space run (R32, R34). -/
def State.breakAt (s : State) (open_ : Bool) (date : Ticks) : Ticks :=
  if open_ then date + 240000 else date + 2 * s.loader.params.charTime

/-- The state in which a break event or LINE-OPEN is reported (R32, R34). -/
def State.struck (s : State) (open_ : Bool) (date : Ticks) : State := { s with
  now := max s.now (s.breakAt open_ date)
  receiver := if open_ then { s.receiver with openReported := true, lineOpen := true }
              else { s.receiver with breakReported := true, assembler := .empty } }

/-- At LINE-OPEN the keyer stops keying MESSAGE (section 3.4). -/
def State.keyingStopped (s : State) (open_ : Bool) : State :=
  if open_ = true ∧ s.keyer.holder = .message then { s with keyer := Keyer.reset } else s

theorem exec_break {s : State} {date : Ticks} (hl : s.receiver.level = some .space)
    (hd : s.receiver.spaceDate = some date) (open_ : Bool) :
    exec (if open_ then .lineOpen else .breakEvent) s =
      perform s (!(if open_ then s.receiver.openReported else s.receiver.breakReported)) fun s =>
        ((((s.struck open_ date).listenerBreak (s.breakAt open_ date)).interrupt).keyingStopped open_).settle := by
  cases open_ with
  | false =>
    simp only [Bool.false_eq_true, if_false, exec, execBreakEvent, hl, hd, State.keyingStopped, false_and]
    rfl
  | true =>
    simp only [if_true, exec, execLineOpen, hl, hd, State.keyingStopped, true_and]
    rfl

/-- After the listener: the message being sent, and the keyer. -/
theorem State.broken_off {s x : State} (hactive : x.active = s.active) (hkeyer : x.keyer = s.keyer) (open_ : Bool) :
    (x.interrupt).keyingStopped open_ =
      if open_ = true ∧ s.keyer.holder = .message then
        { (if s.active.any (·.state == .sending) then x.finishMessage .interrupted .none else x) with
          keyer := { holder := .none, current := none, spaceSince := none } }
      else (if s.active.any (·.state == .sending) then x.finishMessage .interrupted .none else x) := by
  have hi : x.interrupt = if s.active.any (·.state == .sending) then x.finishMessage .interrupted .none else x := by
    rw [State.interrupt, State.sendingNow, hactive]
  have hk : x.interrupt.keyer = s.keyer := by
    obtain ⟨_, _, _, _, _, h⟩ := x.interrupt_frame
    rw [h, ← hkeyer]
  rw [State.keyingStopped, hk, hi]
  rfl

theorem State.listenerBreak_message {s : State}
    (h : s.listener.state = .header ∨ s.listener.state = .text ∨ s.listener.state = .check) (t : Ticks) :
    s.listenerBreak t = s.messageOver 8 .broken .quietWait := by
  refine if_pos ?_
  rcases h with h | h | h <;> simp [Listener.inMessage, h]

theorem State.listenerBreak_phase {s : State} (h : s.listener.state = .slottedAnswers ∨ s.listener.state = .freeAnswer)
    (t : Ticks) : s.listenerBreak t = s.phaseOver t .quietWait := by
  rcases h with h | h <;> simp [State.listenerBreak, Listener.inMessage, Listener.inPhase, h]

theorem State.listenerBreak_idle {s : State} (h : s.listener.state = .idle ∨ s.listener.state = .quietWait)
    (t : Ticks) : s.listenerBreak t = s.onListener fun l => { l with state := .quietWait, held := none } := by
  rcases h with h | h <;> simp [State.listenerBreak, Listener.inMessage, Listener.inPhase, h]

theorem State.answerPhaseOver_eq (s : State) : s.answerPhaseOver = { s with
    matcher := if s.matcher.state = .due then { s.matcher with state := .idle, answer := none } else s.matcher } := by
  unfold State.answerPhaseOver
  split <;> rfl

/-- What the listener's own break does to the rest: the listener waits for quiet, the receiver is left, and of the
table either nothing changes or what is left has nothing SENDING. -/
theorem State.listenerBreak_spec {s : State} (h : s.table.countP OutRecord.isActive ≤ 1) (t : Ticks) :
    (s.listenerBreak t).receiver = s.receiver ∧ (s.listenerBreak t).listener.state = .quietWait ∧
      ((s.listenerBreak t).table = s.table ∨ NoneSending (s.listenerBreak t).table) := by
  unfold State.listenerBreak
  split
  · obtain ⟨m, x, hrun⟩ := s.heldCompleted_run
    have hb : ∃ m x l, s.heldCompleted.matchBroken 8 .broken = { s with mech := m, matcher := x, log := l } := by
      rw [hrun]
      unfold State.matchBroken
      split
      · obtain ⟨n, y, hclose⟩ := State.closeReceiveRun_run { s with mech := m, matcher := x } (some 8)
        rw [hclose]
        unfold State.finishIncoming
        split <;> exact ⟨_, _, _, rfl⟩
      · exact ⟨_, _, _, rfl⟩
    obtain ⟨m, x, l, hb⟩ := hb
    rw [State.messageOver_eq, hb]
    exact ⟨rfl, rfl, .inl rfl⟩
  · split
    · obtain ⟨_, _, _, _, _, hj⟩ := (s.phaseLeft t .quietWait).phaseJudged_frame
      have htable := (s.phaseLeft t .quietWait).phaseJudged_table h
      have he : s.phaseOver t .quietWait = (s.phaseLeft t .quietWait).phaseJudged.answerPhaseOver := rfl
      rw [he, State.answerPhaseOver_eq]
      exact ⟨by rw [hj]; rfl, by rw [hj]; rfl, htable⟩
    · exact ⟨rfl, rfl, .inl rfl⟩

/-- After LINE-OPEN nothing is SENDING, keyed or followed. -/
theorem State.lineOpen_spec {s : State} (h : s.table.countP OutRecord.isActive ≤ 1) (date : Ticks) {t : State}
    (ht : t = (((s.struck true date).listenerBreak (s.breakAt true date)).interrupt).keyingStopped true) :
    t.receiver.lineOpen = true ∧ t.listener.state = .quietWait ∧ t.keyer.holder ≠ .message ∧
      t.active.any (·.state == .sending) = false := by
  obtain ⟨hr, hl, htable⟩ := State.listenerBreak_spec (s := s.struck true date) h (s.breakAt true date)
  generalize (s.struck true date).listenerBreak (s.breakAt true date) = x at ht hr hl htable
  obtain ⟨_, _, _, _, _, hi⟩ := x.interrupt_frame
  have hnone : x.interrupt.sendingNow = false := by
    by_cases hsend : x.sendingNow = true
    · rw [State.interrupt, if_pos hsend]
      rcases htable with htable | htable
      · obtain ⟨m, hm, -⟩ := Option.any_eq_true .. |>.mp hsend
        exact State.sendingNow_of_none (State.finishMessage_none_sending (htable ▸ h) hm _ _)
      · exact absurd (State.sendingNow_of_none htable) (by simp [hsend])
    · rw [State.interrupt, if_neg hsend]
      exact Bool.eq_false_iff.mpr hsend
  have hrest : t.receiver = x.receiver ∧ t.listener = x.listener ∧ t.table = x.interrupt.table := by
    rw [ht, State.keyingStopped]
    split <;> rw [hi] <;> exact ⟨rfl, rfl, rfl⟩
  obtain ⟨hreceiver, hlistener, hts⟩ := hrest
  refine ⟨?_, hlistener ▸ hl, ?_, ?_⟩
  · rw [hreceiver, hr]; rfl
  · rw [ht, State.keyingStopped]
    split
    · exact nofun
    · rename_i hno
      exact fun hm => hno ⟨rfl, hm⟩
  · have : t.active = x.interrupt.active := by rw [State.active, hts, State.active]
    rw [this]
    exact hnone

/-- Settles O41: the break at the listener by its state, then what it takes from the transmitter and the keyer. -/
theorem breakAndLineOpenBreakOff : Obligations.BreakAndLineOpenBreakOff := by
  refine fun s date open_ hw hlevel hdate => ⟨fun hrep => ?reported, fun hrep => ?strikes, fun t ht hrep hsafe => ?spec⟩
  case reported =>
    refine (exec_break hlevel hdate open_).trans (perform_no ?_)
    rw [hrep]
    rfl
  case strikes =>
    have hans {x : State} (h : ((s.struck open_ date).listenerBreak (s.breakAt open_ date)).interrupt.keyingStopped open_ = x) :
        Answers (if open_ then .lineOpen else .breakEvent) s fun t => t = x.settle :=
      answers_of_perform (exec_break hlevel hdate open_) hw (by rw [hrep]; rfl) (congrArg State.settle h)
    have hans' {x : State} (h : (s.struck open_ date).listenerBreak (s.breakAt open_ date) = x)
        (hactive : x.active = s.active) (hkeyer : x.keyer = s.keyer) :=
      hans ((congrArg (fun x : State => x.interrupt.keyingStopped open_) h).trans
        (State.broken_off hactive hkeyer open_))
    refine ⟨fun hs => ?idle, fun hs => ⟨fun hm => ?broken, fun i hm hi => ?called⟩, fun hs => ⟨fun hph => ?alone,
      fun m ph hdue hm hstate hph => ?sending, fun m ph hdue hm hstate hph hcount => ?answering⟩⟩
    case idle => exact hans' (State.listenerBreak_idle (s := s.struck open_ date) hs _) rfl rfl
    case broken =>
      exact hans' ((State.listenerBreak_message (s := s.struck open_ date) hs _).trans
        (State.messageOver_of_idle (s := s.struck open_ date) hm ..)) rfl rfl
    case called =>
      refine hans' ((State.listenerBreak_message (s := s.struck open_ date) hs _).trans
        (State.messageOver_of_called (s := s.struck open_ date) hm hi ..))
        (?_ : ((s.struck open_ date).heldCompleted.closeReceiveRun (some 8)).active = _)
        (?_ : ((s.struck open_ date).heldCompleted.closeReceiveRun (some 8)).keyer = _)
      all_goals
        obtain ⟨m, x, hrun⟩ := (s.struck open_ date).heldCompleted_run
        obtain ⟨n, y, hclose⟩ := (s.struck open_ date).heldCompleted.closeReceiveRun_run (some 8)
        rw [hclose, hrun]
        rfl
    case alone =>
      by_cases hdue : s.matcher.state = .due
      · exact hans' ((State.listenerBreak_phase (s := s.struck open_ date) hs _).trans
          ((State.phaseOver_alone (s := s.struck open_ date) _ _ hph).trans
            ((if_pos hdue).trans (if_pos (c := s.matcher.state = .due) hdue).symm)))
          (by rw [if_pos hdue]; rfl) (by rw [if_pos hdue])
      · exact hans' ((State.listenerBreak_phase (s := s.struck open_ date) hs _).trans
          ((State.phaseOver_alone (s := s.struck open_ date) _ _ hph).trans
            ((if_neg hdue).trans (if_neg (c := s.matcher.state = .due) hdue).symm)))
          (by rw [if_neg hdue]; rfl) (by rw [if_neg hdue])
    case sending =>
      exact hans' ((State.listenerBreak_phase (s := s.struck open_ date) hs _).trans
        ((State.phaseOver_judged (s := s.struck open_ date) _ _ hdue).trans
          (State.phaseJudged_sending (s := (s.struck open_ date).phaseLeft _ .quietWait) hm hstate hph))) rfl rfl
    case answering =>
      have hphase := (State.listenerBreak_phase (s := s.struck open_ date) hs (s.breakAt open_ date)).trans
        (State.phaseOver_judged (s := s.struck open_ date) _ _ hdue)
      refine hans ((congrArg (fun x : State => x.interrupt.keyingStopped open_) hphase).trans ?_)
      generalize hleft : (s.struck open_ date).phaseLeft (s.breakAt open_ date) .quietWait = left
      have hm' : left.active = some m := hleft ▸ hm
      have hph' : left.transmitter.attempt.bind Attempt.phase = some ph := hleft ▸ hph
      have hcount' : left.table.countP OutRecord.isActive ≤ 1 := hleft ▸ hcount
      have hnone := State.sendingNow_of_none (State.phaseJudged_none_sending hcount' hm' hstate hph')
      obtain ⟨_, _, _, _, _, hframe⟩ := left.phaseJudged_frame
      have hkeyer : left.phaseJudged.keyer = s.keyer := by rw [hframe, ← hleft]; rfl
      rw [State.interrupt, hnone, if_neg (by simp), State.keyingStopped, hkeyer,
        State.phaseJudged_answering hm' hstate hph']
      subst hleft
      rfl
  case spec =>
    have he : exec .lineOpen s = _ := exec_break hlevel hdate true
    rw [he, perform_yes hw (by simp [hrep])] at ht
    obtain rfl := Host.Outcome.next.inj ht
    have := State.lineOpen_spec hsafe.2.2.2 date rfl
    simpa [State.active] using this

end Sys2Proof.Machine
end

section
/-! The lamps and pins, and the commands of the page printer (sections 6.2 to 6.9, 9.6). -/

namespace Sys2Proof.Machine

open Sys2Proof

/-! ### Lamps and pins -/

theorem keyedLevel_space_iff (c : Code) (u : Nat) : keyedLevel c u = .space ↔
    u = 0 ∨ u ≤ 5 ∧ c.val / 2 ^ (5 - u) % 2 = 0 := by
  by_cases h0 : u = 0
  · simp [keyedLevel, h0]
  · by_cases h6 : 6 ≤ u
    · simp only [keyedLevel, h0, h6, if_true, if_false, false_or, reduceCtorEq, false_iff]
      omega
    · have h5 : u ≤ 5 := by omega
      simp only [keyedLevel, h0, h6, if_false, false_or, h5, true_and, Nat.testBit_eq_decide_div_mod_eq, decide_eq_true_eq]
      split <;> simp <;> omega

theorem rowHoles_get (row : Code) (k : Fin 5) :
    (rowHoles row)[k.val]? = some (decide (row.val / 2 ^ (4 - k.val) % 2 = 1)) := by
  fin_cases k <;> simp [rowHoles, Nat.testBit_eq_decide_div_mod_eq]

theorem Store.free_eq_zero (st : Store) : (st.free == 0) = true ↔ 1024 ≤ st.chars.length := by
  simp only [Store.free, Config.storeCapacity, beq_iff_eq]
  omega

/-- Settles O31: each lamp and each pin by what it reads. -/
theorem lampsAndPinsShowTheState : Obligations.LampsAndPinsShowTheState := by
  refine fun s => ⟨?line, ?called, ?sending, ?fault, .rfl, s.store.free_eq_zero, ?held, ?unattended, ?keyer, ?level,
    ?hammer, ?step, ?returning, ?feed, ?bell, ?magnets, ?released, ?motor, .rfl⟩
  case line => simp [State.lamps]
  case called => simp [State.lamps, Option.any_eq_true]
  case sending => simp [State.lamps]
  case fault => simp [State.lamps, or_assoc]
  case held => simp [State.lamps]
  case unattended => simp [State.lamps]
  case keyer => simp [State.pins, Option.isSome_iff_ne_none]
  case level =>
    intro hsafe c hc
    obtain ⟨-, -, -, hall⟩ := hsafe
    rw [hc, Option.all_some, beq_iff_eq] at hall
    rw [State.pins]
    dsimp only
    rw [hall, beq_iff_eq, keyedLevel_space_iff]
  case hammer => simp [State.pins, Option.any_eq_true]
  case step => cases h : s.mech.printer.carriage <;> simp [State.pins, h]
  case returning => cases h : s.mech.printer.carriage <;> simp [State.pins, h]
  case feed => cases h : s.mech.printer.platen <;> simp [State.pins, h]
  case bell => simp [State.pins, Option.isSome_iff_ne_none]
  case magnets =>
    intro c hc hm
    refine ⟨by simp [State.pins, hc, hm], by simp [State.pins, hc, hm, rowHoles], fun k => ?_⟩
    have hpunch : s.pins.punch = rowHoles c.row := by simp [State.pins, hc, hm]
    rw [hpunch, rowHoles_get]
  case released =>
    rintro (hc | ⟨c, hc, hm⟩)
    · simp [State.pins, hc]
    · simp [State.pins, hc, hm]
  case motor => simp [State.pins]

/-! ### Events at the mechanism -/

/-- An event at the mechanism answers what the mechanism is after it. -/
theorem answers_of_mechEvent {c : Instr} {s : State} {arises : Bool} {u : Ticks} {f : Params → Ticks → Mech → Mech}
    {m : Mech} (hexec : exec c s = perform s arises fun s => s.mechEvent u f) (hw : s.working = true)
    (h : arises = true) (hf : f s.loader.params (max s.now u) s.mech = m) :
    Answers c s fun t => t = s.mechAfter u m :=
  answers_of_perform hexec hw h ((s.settled_eq_mechAfter u f).trans (by rw [hf]))

/-! ### The holds -/

theorem exec_hammerPulseEnd {s : State} {h : Hammer} (hh : s.mech.printer.hammer = some h) :
    exec .hammerPulseEnd s = perform s h.pulsing fun s =>
      s.mechEvent h.pulseEnd fun p _ m => { m with printer := m.printer.pulseEnd p h } := by
  simp only [exec, execHammerPulseEnd, hh]

theorem exec_hammerRecoveryEnd {s : State} {h : Hammer} (hh : s.mech.printer.hammer = some h) :
    exec .hammerRecoveryEnd s = perform s (!h.pulsing) fun s =>
      s.mechEvent h.recoveryEnd fun _ _ m => { m with printer := { m.printer with hammer := none } } := by
  simp only [exec, execHammerRecoveryEnd, hh]

theorem exec_carriageStepEnd {s : State} {u : Ticks} (h : s.mech.printer.carriage = .step u) :
    exec .carriageStepEnd s = perform s true fun s =>
      s.mechEvent u fun _ _ m => { m with printer := { m.printer with carriage := .free } } := by
  simp only [exec, execCarriageStepEnd, h]

theorem exec_lineTimeEnd {s : State} {u : Ticks} (h : s.mech.printer.platen = .feed u) :
    exec .lineTimeEnd s = perform s true fun s =>
      s.mechEvent u fun _ _ m => { m with printer := { m.printer with platen := .free } } := by
  simp only [exec, execLineTimeEnd, h]

theorem exec_returnTimeout {s : State} {x : Ticks} {live : Bool} (h : s.mech.printer.carriage = .ret x live) :
    exec .returnTimeout s = perform s true fun s =>
      s.mechEvent x fun _ _ m => { m with printer := m.printer.returnExpired } := by
  simp only [exec, execReturnTimeout, h]

theorem exec_leftMarginContact (u : Ticks) (s : State) :
    exec (.leftMarginContact u) s = perform s true fun s =>
      s.mechEvent u fun _ _ m => { m with printer := m.printer.contact } := rfl

theorem exec_bellPulseEnd {s : State} {u : Ticks} (h : s.mech.printer.bell = some u) :
    exec .bellPulseEnd s = perform s true fun s =>
      (s.at u).onMech fun _ _ m => { m with printer := { m.printer with bell := none } } := by
  simp only [exec, execBellPulseEnd, h]

theorem ms_eq (n : Nat) : ms n = 120 * n := Nat.mul_comm n 120

theorem Printer.contact_of_other {r : Printer} (h : ∀ x live, r.carriage ≠ .ret x live) :
    r.contact = { r with leftMargin := true } := by
  unfold Printer.contact
  split
  · exact absurd ‹_› (h _ _)
  · exact absurd ‹_› (h _ _)
  · rfl

/-- Settles O54: each hold by its end, the RETURN by whether it is live. -/
theorem printerHoldsEndAtTheirTimes : Obligations.PrinterHoldsEndAtTheirTimes := by
  refine fun s hw => ⟨fun h hh hp hplaten => ⟨fun hc => ?step, fun hc => ?stay⟩, fun h hh hp => ?recovery,
    fun u hc => answers_of_mechEvent (exec_carriageStepEnd hc) hw rfl rfl,
    fun u hp => answers_of_mechEvent (exec_lineTimeEnd hp) hw rfl rfl,
    fun u x hc => ⟨?live, ?timeout⟩, fun u x hc => ⟨?dead, ?deadTimeout⟩, fun u hc => ?contact,
    fun u hb => answers_of_perform (exec_bellPulseEnd hb) hw rfl rfl⟩
  case step =>
    exact answers_of_mechEvent (exec_hammerPulseEnd hh) hw hp (by simp [Printer.pulseEnd, hc, hplaten, ms_eq])
  case stay =>
    exact answers_of_mechEvent (exec_hammerPulseEnd hh) hw hp (by simp [Printer.pulseEnd, hc, hplaten])
  case recovery => exact answers_of_mechEvent (exec_hammerRecoveryEnd hh) hw (by simp [hp]) rfl
  case live => exact answers_of_mechEvent (exec_leftMarginContact u s) hw rfl (by simp [Printer.contact, hc])
  case timeout =>
    exact answers_of_mechEvent (exec_returnTimeout hc) hw rfl
      (by simp [Printer.returnExpired, hc, Printer.enterFault, Printer.withdraw])
  case dead => exact answers_of_mechEvent (exec_leftMarginContact u s) hw rfl (by simp [Printer.contact, hc])
  case deadTimeout => exact answers_of_mechEvent (exec_returnTimeout hc) hw rfl (by simp [Printer.returnExpired, hc])
  case contact =>
    exact answers_of_mechEvent (exec_leftMarginContact u s) hw rfl (by rw [Printer.contact_of_other hc])

/-! ### The paper -/

theorem exec_paperOut (u : Ticks) (s : State) : exec (.paperOut u) s =
    perform s s.mech.printer.paper fun s =>
      s.mechEvent u fun _ _ m => { m with printer := m.printer.paperGone } := rfl

theorem exec_paperIn (u : Ticks) (s : State) : exec (.paperIn u) s =
    perform s (!s.mech.printer.paper) fun s =>
      s.mechEvent u fun _ _ m => { m with printer := m.printer.paperBack (m.motor.state == .running) } := rfl

/-- The wrap of what a stop withdraws is owed while its RETURN is in flight (R117). -/
theorem Printer.withdraw_eq (r : Printer) : r.withdraw = { r with
    head := none, internals := []
    wrapOwed := r.wrapOwed || (match r.carriage with
      | .ret _ true => decide (PrintOp.newline ∈ r.internals)
      | _ => false) } := by
  unfold Printer.withdraw Printer.returning
  match hc : r.carriage with
  | .ret _ true => simp
  | .ret _ false => simp
  | .free => rfl
  | .step _ => rfl
  | .strike _ => rfl

/-- At rest a withdrawal owes nothing new. -/
theorem Printer.withdraw_of_rest {r : Printer} (h : r.busy = false) :
    r.withdraw = { r with head := none, internals := [] } := by
  have hc : r.carriage = .free := by
    simp only [Printer.busy, Bool.or_eq_false_iff, bne_eq_false_iff_eq] at h
    exact h.1.1
  simp [Printer.withdraw_eq, hc]

theorem Printer.paperGone_active {r : Printer} (h : r.state = .active) : r.paperGone =
    if r.busy then { r.withdraw with paper := false, stop := if r.stop = .motor then .motor else .paper }
    else { r.withdraw with paper := false, state := .paperOut } := by
  obtain ⟨⟩ := r
  subst h
  rfl

/-- Settles O55: the paper by the printer's state. -/
theorem paperStopsThePrinter : Obligations.PaperStopsThePrinter := by
  refine fun s u hw => ⟨fun hp => ?absent, fun hp => ?present, fun hp => ⟨fun hs => ?rest, fun hs hb => ?still,
    fun hs hb => ?moving, fun hs => ?stays⟩, fun hp => ⟨fun hs => ?back, fun hs => ?cancels, fun hs => ?flag⟩⟩
  case absent => exact (exec_paperOut u s).trans (perform_no hp)
  case present => exact (exec_paperIn u s).trans (perform_no (by simp [hp]))
  case rest =>
    refine answers_of_mechEvent (exec_paperOut u s) hw hp ?_
    rcases hs with hs | hs <;> simp [Printer.paperGone, hs]
  case still =>
    refine answers_of_mechEvent (exec_paperOut u s) hw hp ?_
    rw [Printer.paperGone_active hs, hb, Printer.withdraw_of_rest hb]
    rfl
  case moving =>
    refine answers_of_mechEvent (exec_paperOut u s) hw hp ?_
    rw [Printer.paperGone_active hs, hb, Printer.withdraw_eq]
    rfl
  case stays =>
    refine answers_of_mechEvent (exec_paperOut u s) hw hp ?_
    rcases hs with hs | hs <;> simp [Printer.paperGone, hs]
  case back =>
    refine answers_of_mechEvent (exec_paperIn u s) hw (by simp [hp]) ?_
    simp [Printer.paperBack, hs]
  case cancels =>
    refine answers_of_mechEvent (exec_paperIn u s) hw (by simp [hp]) ?_
    simp [Printer.paperBack, hs]
  case flag =>
    refine answers_of_mechEvent (exec_paperIn u s) hw (by simp [hp]) ?_
    rcases hs with hs | hs | hs <;> simp [Printer.paperBack, hs]

end Sys2Proof.Machine
end

section
/-! The typewheel and the strike (sections 6.4, 6.5). -/

namespace Sys2Proof.Machine

open Sys2Proof

/-- A strike at `target` is first in order, in a printer that works with nothing in flight (R112). -/
def Mech.first (p : Params) (m : Mech) (target : Nat) : Prop :=
  m.motor.state = .running ∧ (m.printer.state = .idle ∨ m.printer.state = .active) ∧ m.printer.stop = .none ∧
    m.printer.internals = [] ∧ m.printer.head = some (.strike target) ∧ m.printer.column ≠ none ∧
    (m.printer.atMargin = false ∨ p.overprint = true) ∧ m.printer.busy = false

theorem Printer.not_returning_of_rest {r : Printer} (h : r.busy = false) : r.returning = false := by
  simp only [Printer.busy, Bool.or_eq_false_iff, bne_eq_false_iff_eq] at h
  simp [Printer.returning, h.1.1]

theorem Mech.strikeReady_iff (p : Params) (m : Mech) : m.strikeReady p = true ↔
    m.printer.synced = true ∧ m.first p m.printer.wheel := by
  by_cases hb : m.printer.busy = true
  · have hno : m.strikeReady p = false := by
      unfold Mech.strikeReady
      dsimp only
      split <;> simp [hb]
    simp [hno, Mech.first, hb]
  · rw [Bool.not_eq_true] at hb
    have hr := Printer.not_returning_of_rest hb
    unfold Mech.strikeReady
    dsimp only
    split
    · rename_i target hh
      simp only [Mech.printing, Printer.needsEstablish, Printer.needsWrap, hr, hb, hh, Mech.first, Bool.not_false,
        Bool.and_true, Bool.true_or, Bool.and_eq_true, Bool.or_eq_true, beq_iff_eq, Bool.not_eq_true',
        List.isEmpty_iff, Option.isNone_eq_false_iff, Bool.and_eq_false_iff, Bool.not_eq_false', Option.some.injEq,
        PrintOp.strike.injEq, Option.isSome_iff_ne_none]
      constructor
      · rintro ⟨⟨⟨⟨⟨⟨⟨hs, hstop⟩, hm⟩, hi⟩, hc⟩, hw⟩, hsync⟩, ht⟩
        exact ⟨hsync, hm, hs, hstop, hi, ht.symm, hc, hw, trivial⟩
      · rintro ⟨hsync, hm, hs, hstop, hi, ht, hc, hw, -⟩
        exact ⟨⟨⟨⟨⟨⟨⟨hs, hstop⟩, hm⟩, hi⟩, hc⟩, hw⟩, hsync⟩, ht.symm⟩
    · rename_i hne
      simp only [Bool.false_eq_true, Mech.first, false_iff, not_and]
      exact fun _ _ _ _ _ hh => absurd hh (hne _)

/-! ### The count and the index check -/

theorem Printer.wheelEvent_plain (r : Printer) :
    r.wheelEvent false = { r with wheel := if r.wheel < 48 then r.wheel + 1 else 0 } := rfl

theorem Printer.wheelEvent_sync {r : Printer} (h : r.synced = false) :
    r.wheelEvent true = { r with wheel := 0, synced := true } := by
  simp [Printer.wheelEvent, h]

theorem Printer.wheelEvent_match {r : Printer} (h : r.synced = true) (hw : r.wheel = 48) :
    r.wheelEvent true = { r with wheel := 0, mismatches := 0 } := by
  simp [Printer.wheelEvent, h, hw]

theorem Printer.wheelEvent_mismatch {r : Printer} (h : r.synced = true) (hw : r.wheel ≠ 48) (hm : r.mismatches < 2) :
    r.wheelEvent true = { r with wheel := 0, mismatches := r.mismatches + 1 } := by
  have hmin : min 3 (r.mismatches + 1) = r.mismatches + 1 := by omega
  have hne : ¬ r.mismatches + 1 = 3 := by omega
  simp [Printer.wheelEvent, h, hw, hmin, hne]

theorem Printer.wheelEvent_third {r : Printer} (h : r.synced = true) (hw : r.wheel ≠ 48) (hm : 2 ≤ r.mismatches) :
    r.wheelEvent true =
      if r.state = .fault then { r with wheel := 0, mismatches := 3 }
      else ({ r with wheel := 0, mismatches := 3 } : Printer).enterFault := by
  have hmin : min 3 (r.mismatches + 1) = 3 := by omega
  by_cases hf : r.state = .fault <;> simp [Printer.wheelEvent, h, hw, hmin, hf]

/-! ### The event -/

theorem exec_wheelPositionEvent (index : Bool) (u : Ticks) (s : State) : exec (.wheelPositionEvent index u) s =
    perform s true fun s => s.mechEvent u fun p now m => m.wheelEvent p now index := rfl

/-- The event with a printer that strikes nothing. -/
theorem Mech.wheelEvent_of_not_first {p : Params} {now : Ticks} {m : Mech} {index : Bool} {r : Printer}
    (hr : m.printer.wheelEvent index = r) (h : ¬ (r.synced = true ∧ ({ m with printer := r } : Mech).first p r.wheel)) :
    m.wheelEvent p now index = { m with printer := r } := by
  subst hr
  exact if_neg fun hready => h ((Mech.strikeReady_iff p _).mp hready)

theorem Mech.wheelEvent_of_first {p : Params} {now : Ticks} {m : Mech} {index : Bool} {r : Printer}
    (hr : m.printer.wheelEvent index = r) (hs : r.synced = true)
    (h : ({ m with printer := r } : Mech).first p r.wheel) :
    m.wheelEvent p now index = Mech.printTake { m with printer := r.fire p now } := by
  subst hr
  exact if_pos ((Mech.strikeReady_iff p _).mpr ⟨hs, h⟩)

theorem Printer.fire_eq {p : Params} {now : Ticks} {r : Printer} {column : Nat} (h : r.column = some column) :
    r.fire p now = { r with
      head := none
      heldControl := false
      hammer := some {
        pulseEnd := now + 12 * p.hammerPulse
        recoveryEnd := now + 12 * p.hammerPulse + 120 * p.hammerRecovery
        pulsing := true }
      platen := .strike
      carriage := .strike (decide (column < p.lineLength))
      column := some (if decide (column < p.lineLength) then column + 1 else column)
      atMargin := r.atMargin || !decide (column < p.lineLength) } := by
  have hb : r.belowEnd p = decide (column < p.lineLength) := by simp [Printer.belowEnd, h]
  by_cases hlt : column < p.lineLength <;>
    simp [Printer.fire, hb, h, hlt, ms_eq, Nat.mul_comm p.hammerPulse 12]

/-- Settles O53: the count and the index check, and the strike where it is first and its target is reached. -/
theorem wheelEventsCountAndFire : Obligations.WheelEventsCountAndFire := by
  refine fun s index u hw => ⟨fun hno => ?plain, fun hno => ⟨fun hs => ?sync, fun hs h48 => ?good,
    fun hs h48 hm => ?mismatch⟩, fun hs h48 hm => ?third, fun target column hf hc hcase => ?fires⟩
  case plain =>
    refine answers_of_mechEvent (exec_wheelPositionEvent false u s) hw rfl
      (Mech.wheelEvent_of_not_first (Printer.wheelEvent_plain _) fun ⟨hs, hfirst⟩ => ?_)
    rcases hno with hno | hno
    · exact hno hfirst
    · exact absurd (hs.symm.trans hno) nofun
  case sync =>
    exact answers_of_mechEvent (exec_wheelPositionEvent true u s) hw rfl
      (Mech.wheelEvent_of_not_first (Printer.wheelEvent_sync hs) fun ⟨_, hfirst⟩ => hno hfirst)
  case good =>
    exact answers_of_mechEvent (exec_wheelPositionEvent true u s) hw rfl
      (Mech.wheelEvent_of_not_first (Printer.wheelEvent_match hs h48) fun ⟨_, hfirst⟩ => hno hfirst)
  case mismatch =>
    exact answers_of_mechEvent (exec_wheelPositionEvent true u s) hw rfl
      (Mech.wheelEvent_of_not_first (Printer.wheelEvent_mismatch hs h48 hm) fun ⟨_, hfirst⟩ => hno hfirst)
  case third =>
    refine answers_of_mechEvent (exec_wheelPositionEvent true u s) hw rfl
      ((Mech.wheelEvent_of_not_first (Printer.wheelEvent_third hs h48 hm) ?_).trans ?_)
    · rintro ⟨-, -, hstate, -⟩
      by_cases hfault : s.mech.printer.state = .fault
      · simp [hfault] at hstate
      · simp [hfault, Printer.enterFault] at hstate
    · by_cases hfault : s.mech.printer.state = .fault
      · simp only [if_pos hfault]
      · simp only [if_neg hfault]
        rfl
  case fires =>
    refine answers_of_mechEvent (exec_wheelPositionEvent index u s) hw rfl ?_
    have hfires {r : Printer} (hr : s.mech.printer.wheelEvent index = r) (hs : r.synced = true)
        (hw : r.wheel = target) (hrest : r = { s.mech.printer with
          wheel := r.wheel, synced := r.synced, mismatches := r.mismatches }) :
        s.mech.wheelEvent s.loader.params (max s.now u) index = Mech.printTake { s.mech with
          printer := { r with
            head := none
            heldControl := false
            hammer := some {
              pulseEnd := max s.now u + 12 * s.loader.params.hammerPulse
              recoveryEnd := max s.now u + 12 * s.loader.params.hammerPulse + 120 * s.loader.params.hammerRecovery
              pulsing := true }
            platen := .strike
            carriage := .strike (decide (column < s.loader.params.lineLength))
            column := some (if decide (column < s.loader.params.lineLength) then column + 1 else column)
            atMargin := s.mech.printer.atMargin || !decide (column < s.loader.params.lineLength) } } := by
      have hfirst : ({ s.mech with printer := r } : Mech).first s.loader.params r.wheel := by
        rw [hw, hrest]
        exact hf
      have hcol : r.column = some column := by
        rw [hrest]
        exact hc
      have hmargin : r.atMargin = s.mech.printer.atMargin := by rw [hrest]
      rw [Mech.wheelEvent_of_first hr hs hfirst, Printer.fire_eq hcol, hmargin]
    rcases hcase with ⟨rfl, hs, ht⟩ | ⟨rfl, rfl, hidx⟩
    · refine (hfires (Printer.wheelEvent_plain _) hs ht rfl).trans ?_
      simp only [ht, hs, true_or, if_true]
    · by_cases hs : s.mech.printer.synced = true
      · by_cases h48 : s.mech.printer.wheel = 48
        · refine (hfires (Printer.wheelEvent_match hs h48) hs rfl rfl).trans ?_
          simp [hs, h48]
        · have hm : s.mech.printer.mismatches < 2 := by
            rcases hidx with h | h | h
            · exact absurd (hs.symm.trans h) nofun
            · exact absurd h h48
            · exact h
          refine (hfires (Printer.wheelEvent_mismatch hs h48 hm) hs rfl rfl).trans ?_
          simp [hs, h48]
      · rw [Bool.not_eq_true] at hs
        refine (hfires (Printer.wheelEvent_sync hs) rfl rfl rfl).trans ?_
        simp [hs]

end Sys2Proof.Machine
end

section
/-! The tape, the motor, and what the printer and the punch see of it (sections 6.1, 7.1 to 7.5, 9.1 to 9.3). -/

namespace Sys2Proof.Machine

open Sys2Proof

/-! ### The tape -/

theorem exec_tapeLow (u : Ticks) (s : State) : exec (.tapeLow u) s =
    perform s (!(s.mech.punch.tapeLow && s.mech.punch.tapePresent)) fun s =>
      s.mechEvent u fun _ _ m => { m with punch := m.punch.lowTape } := rfl

theorem exec_tapeGone (u : Ticks) (s : State) : exec (.tapeGone u) s =
    perform s s.mech.punch.tapePresent fun s =>
      s.mechEvent u fun _ _ m => { m with punch := m.punch.goneTape } := rfl

theorem exec_tapeReplaced (u : Ticks) (s : State) : exec (.tapeReplaced u) s =
    perform s (!s.mech.punch.tapeUsable) fun s =>
      s.mechEvent u fun _ _ m => { m with punch := m.punch.newTape (m.motor.state == .running) } := rfl

theorem exec_tapeSensorFlagChange (low : Bool) (u : Ticks) (s : State) : exec (.tapeSensorFlagChange low u) s =
    perform s (!s.mech.punch.tapePresent && low != s.mech.punch.tapeLow) fun s =>
      (s.at u).onMech fun _ _ m => { m with punch := { m.punch with tapeLow := low } } := rfl

/-- Settles O57: the tape by the punch's state. -/
theorem tapeEventsMoveThePunch : Obligations.TapeEventsMoveThePunch := by
  refine fun s u hw => ⟨fun hl hp => ?low, fun hp => ?gone, fun hp hl => ?replaced, fun hp low => ?flag,
    fun hl => ?lowTape, fun hp => ?goneTape, fun hn => ?newTape, fun low hp hne => ?sensor⟩
  case low => exact (exec_tapeLow u s).trans (perform_no (by simp [hl, hp]))
  case gone => exact (exec_tapeGone u s).trans (perform_no hp)
  case replaced => exact (exec_tapeReplaced u s).trans (perform_no (by simp [Punch.tapeUsable, hl, hp]))
  case flag => exact (exec_tapeSensorFlagChange low u s).trans (perform_no (by simp [hp]))
  case lowTape =>
    have hans {h : Punch} (hf : s.mech.punch.lowTape = h) :
        Answers (.tapeLow u) s fun t => t = s.mechAfter u { s.mech with punch := h } :=
      answers_of_mechEvent (exec_tapeLow u s) hw (by rcases hl with h | h <;> simp [h]) (by rw [hf])
    refine ⟨fun hs => hans ?_, fun hs => hans ?_, fun hs => hans ?_, fun hs => hans ?_⟩
    · rcases hs with hs | hs <;> simp [Punch.lowTape, hs]
    · simp [Punch.lowTape, hs]
    · rcases hs with hs | hs <;> simp [Punch.lowTape, hs]
    · simp [Punch.lowTape, hs]
  case goneTape =>
    have hans {h : Punch} (hf : s.mech.punch.goneTape = h) :
        Answers (.tapeGone u) s fun t => t = s.mechAfter u { s.mech with punch := h } :=
      answers_of_mechEvent (exec_tapeGone u s) hw hp (by rw [hf])
    refine ⟨fun hs => hans ?_, fun hs => hans ?_, fun hs => hans ?_⟩
    · rcases hs with hs | hs | ⟨hs, hc⟩ <;> simp [Punch.goneTape, *]
    · rcases hs with hs | hs | ⟨hs, hc⟩ <;> simp [Punch.goneTape, *]
    · simp [Punch.goneTape, hs]
  case newTape =>
    have hans {h : Punch} (hf : s.mech.punch.newTape (s.mech.motor.state == .running) = h) :
        Answers (.tapeReplaced u) s fun t => t = s.mechAfter u { s.mech with punch := h } :=
      answers_of_mechEvent (exec_tapeReplaced u s) hw
        (by rcases hn with h | h <;> simp [Punch.tapeUsable, h]) (by rw [hf])
    refine ⟨fun hs => hans ?_, fun hs hc => hans ?_, fun hs => hans ?_⟩
    · rcases hs with hs | ⟨hs, hc⟩ <;> simp [Punch.newTape, *]
    · by_cases hm : s.mech.motor.state = .running <;> simp [Punch.newTape, hs, hc, hm]
    · rcases hs with hs | hs | hs | hs <;> simp [Punch.newTape, hs]
  case sensor =>
    exact answers_of_perform (exec_tapeSensorFlagChange low u s) hw (by simp [hp, hne]) rfl

/-! ### The motor -/

theorem exec_runUpExpiry {s : State} {u : Ticks} (h : s.mech.motor.runUp = some u) :
    exec .runUpExpiry s = perform s true fun s => s.mechEvent u fun p now m => m.runUpExpired p now := by
  simp only [exec, execRunUpExpiry, h]

theorem exec_speedOkChange (ok : Bool) (u : Ticks) (s : State) : exec (.speedOkChange ok u) s =
    perform s (ok != s.mech.motor.speedOk) fun s => s.mechEvent u fun _ _ m => m.speedChanged ok := rfl

theorem exec_idleTimerExpiry {s : State} {u : Ticks} (h : s.mech.motor.idle = some u) :
    exec .idleTimerExpiry s = perform s true fun s => s.mechEvent u fun _ _ m => m.motorLeaves .off := by
  simp only [exec, execIdleTimerExpiry, h]

theorem Motor.startEvent_of_off {d : Motor} (h : d.state = .off) (p : Params) (now : Ticks) :
    d.startEvent p now = { d with state := .starting, runUp := some (now + 1200 * p.runUp) } := by
  rw [Motor.startEvent, if_pos h, ms_eq, ← Nat.mul_assoc]

theorem Motor.startEvent_of_not_off {d : Motor} (h : d.state ≠ .off) (p : Params) (now : Ticks) :
    d.startEvent p now = d := if_neg h

theorem Motor.restartIdle_eq (d : Motor) (p : Params) (now : Ticks) :
    d.restartIdle p now = { d with idle := d.idle.map fun _ => now + p.idleTime d.mode } := by
  obtain ⟨state, runUp, idle, speedOk, mode⟩ := d
  cases idle <;> rfl

theorem Printer.motorLeft_active {r : Printer} (h : r.state = .active) : r.motorLeft =
    if r.busy then { r.withdraw with stop := .motor } else { r.withdraw with state := .off } := by
  simp only [Printer.motorLeft, h]

theorem Punch.motorLeft_of_idle {u : Punch} (h : u.state = .idle) :
    u.motorLeft = { u with state := .off, feed := u.feed.stopped } := by
  simp only [Punch.motorLeft, h]

theorem Punch.motorLeft_of_cycling {u : Punch} (h : u.state = .cycling) :
    u.motorLeft = { u with stop := true, feed := u.feed.stopped } := by
  simp only [Punch.motorLeft, h]

theorem Punch.motorLeft_of_other {u : Punch} (hi : u.state ≠ .idle) (hc : u.state ≠ .cycling) :
    u.motorLeft = { u with feed := u.feed.stopped } := by
  unfold Punch.motorLeft
  dsimp only
  split
  · exact absurd ‹_› hi
  · exact absurd ‹_› hc
  · rfl

/-- Settles O59: motor control, and the printer and the punch by their states. -/
theorem motorStartsStopsAndFails : Obligations.MotorStartsStopsAndFails := by
  refine ⟨fun s hw => ⟨fun u hu => ⟨fun hok => ?reached, fun hok => ?failed⟩, fun ok u => ⟨fun heq => ?present,
    fun hne h => ?follows, fun hne hok hs => ?lost⟩, fun u hu => ?idle⟩, fun r => ?printer, fun p now h => ?punch,
    fun p now d => ⟨fun hs hi => ?keyOff, fun hs => ?keyOn⟩⟩
  case reached =>
    exact answers_of_mechEvent (exec_runUpExpiry hu) hw rfl (by rw [Mech.runUpExpired, if_pos hok]; rfl)
  case failed =>
    exact answers_of_mechEvent (exec_runUpExpiry hu) hw rfl (by simp [Mech.runUpExpired, hok])
  case present => exact (exec_speedOkChange ok u s).trans (perform_no (by simp [heq]))
  case follows =>
    refine answers_of_mechEvent (exec_speedOkChange ok u s) hw (by simp [hne]) ?_
    rcases h with h | h <;> simp [Mech.speedChanged, h]
  case lost =>
    refine answers_of_mechEvent (exec_speedOkChange ok u s) hw (by simp [hne]) ?_
    simp [Mech.speedChanged, hok, hs, Mech.motorLeaves]
  case idle => exact answers_of_mechEvent (exec_idleTimerExpiry hu) hw rfl rfl
  case printer =>
    refine ⟨fun hs => ?_, fun hs hb => ?_, fun hs hb => ?_, fun hs => ?_, fun hs => ?_, fun hs hstop => ?_,
      fun hs hstop => ?_, fun hs => ?_⟩
    · simp [Printer.motorLeft, hs]
    · rw [Printer.motorLeft_active hs, hb, Printer.withdraw_of_rest hb]; rfl
    · rw [Printer.motorLeft_active hs, hb, Printer.withdraw_eq]; rfl
    · rcases hs with hs | hs | hs <;> simp [Printer.motorLeft, hs]
    · simp [Printer.motorReached, hs]
    · simp [Printer.motorReached, hs, hstop]
    · simp [Printer.motorReached, hs, hstop]
    · rcases hs with hs | hs | hs <;> simp [Printer.motorReached, hs]
  case punch =>
    refine ⟨fun hs => ?_, fun hs => ?_, fun hi hc => ?_, fun hs hf => ?_, fun hs hf hr => ?_, fun hs hf hr => ?_,
      fun hs => ?_, fun ho hc => ?_⟩
    · exact (Punch.motorLeft_of_idle hs).trans rfl
    · exact (Punch.motorLeft_of_cycling hs).trans rfl
    · exact (Punch.motorLeft_of_other hi hc).trans rfl
    · simp [Punch.motorReached, hs, hf]
    · simp [Punch.motorReached, hs, hf, hr]
    · simp [Punch.motorReached, hs, hf, hr, Punch.feedCycle, Punch.cycleFor, ms_eq]
    · simp [Punch.motorReached, hs]
    · cases hs : h.state <;> simp_all [Punch.motorReached]
  case keyOff =>
    rw [Motor.keyEvent, Motor.startEvent_of_off hs, Motor.restartIdle_eq]
    simp [hi]
  case keyOn => rw [Motor.keyEvent, Motor.startEvent_of_not_off hs, Motor.restartIdle_eq]

end Sys2Proof.Machine
end

section
/-! The pointers of the copy queue (sections 5.5, 5.6): where they come to rest, and what leaves behind them. -/

namespace Sys2Proof.Machine

open Sys2Proof

/-! ### Leaving -/

theorem CopyQueue.placeFrom_eq (q : CopyQueue) (isFor : Entry → Bool) (place : Nat) :
    q.placeFrom isFor place = passOver isFor q.entries place := rfl

/-- What leaves behind the pointers at `print` and `punch` (R98, R101, R102). -/
theorem CopyQueue.leave_eq_movedTo (q : CopyQueue) (print punch : Nat) :
    ({ q with printAt := print, punchAt := punch } : CopyQueue).leave = q.movedTo print punch := by
  unfold CopyQueue.leave CopyQueue.movedTo
  dsimp only
  by_cases hk : min print punch = 0
  · simp [hk]
  · simp only [lowered, List.length_drop, Config.lowWater, ne_eq, hk, not_false_eq_true, true_and, runEnds]
    by_cases hn : q.entries.length - min print punch ≤ 1024
    · simp [hn]
    · cases hw : q.watermark <;> simp [hn]

theorem inRunAfter_append (b : Bool) (l : List Entry) (e : Entry) : inRunAfter b (l ++ [e]) =
    match e with
    | .runStart => true
    | .runEnd => false
    | _ => inRunAfter b l := by
  cases e <;> simp [inRunAfter]

/-- The last run boundary passed decides the in-run flag (R128). -/
theorem inRunAfter_eq_past (b : Bool) (l : List Entry) : inRunAfter b l = inRunPast b l := by
  induction l using List.reverseRecOn with
  | nil => rfl
  | append_singleton l e ih =>
    rw [inRunAfter_append, ih]
    cases e <;> simp [inRunPast, List.filter_append]

/-! ### Rest -/

theorem Mech.rest_of_off {m : Mech} (h : m.punch.switch = .off) : m.rest =
    let place := passOver Entry.forPrint m.queue.entries m.queue.printAt
    { m with
      queue := m.queue.movedTo place (max m.queue.punchAt place)
      punch := { m.punch with
        inRun := inRunPast m.punch.inRun
          ((m.queue.entries.drop m.queue.punchAt).take (place - m.queue.punchAt)) } } := by
  have hmax (a b : Nat) : max a b - a = b - a := by omega
  simp only [Mech.rest, h, CopyQueue.leave_eq_movedTo, inRunAfter_eq_past, hmax]

theorem Mech.rest_of_on {m : Mech} (h : m.punch.switch ≠ .off) : m.rest = { m with
    queue := m.queue.movedTo (passOver Entry.forPrint m.queue.entries m.queue.printAt)
      (passOver Entry.forPunch m.queue.entries m.queue.punchAt) } := by
  cases hs : m.punch.switch with
  | off => exact absurd hs h
  | receive => simp only [Mech.rest, hs, CopyQueue.leave_eq_movedTo]
  | locally => simp only [Mech.rest, hs, CopyQueue.leave_eq_movedTo]

/-! ### The entries at the pointers -/

theorem CopyQueue.movedTo_printEntry (q : CopyQueue) (print punch : Nat) :
    (q.movedTo print punch).printEntry = q.entries[print]? := by
  have h : min print punch + (print - min print punch) = print := by omega
  simp only [CopyQueue.printEntry, CopyQueue.movedTo, List.getElem?_drop, h]

theorem CopyQueue.movedTo_punchEntry (q : CopyQueue) (print punch : Nat) :
    (q.movedTo print punch).punchEntry = q.entries[punch]? := by
  have h : min print punch + (punch - min print punch) = punch := by omega
  simp only [CopyQueue.punchEntry, CopyQueue.movedTo, List.getElem?_drop, h]

/-- A pointer that passes what is not for its consumer stands at the first entry that is. -/
theorem getElem?_passOver (isFor : Entry → Bool) (entries : List Entry) (place : Nat) :
    entries[passOver isFor entries place]? = (entries.drop place).find? isFor := by
  rw [passOver, ← List.getElem?_drop]
  generalize entries.drop place = l
  induction l with
  | nil => rfl
  | cons a l ih =>
    cases h : isFor a with
    | true => simp [h]
    | false => simpa [List.takeWhile_cons, h] using ih

/-- A pointer at an entry for its consumer, or at the tail, stays. -/
theorem passOver_of_rests {isFor : Entry → Bool} {entries : List Entry} {place : Nat}
    (h : entries[place]?.all isFor = true) : passOver isFor entries place = place := by
  unfold passOver
  cases hd : entries.drop place with
  | nil => rfl
  | cons a l =>
    have ha : entries[place]? = some a := by
      rw [← Nat.add_zero place, ← List.getElem?_drop, hd]
      rfl
    rw [ha, Option.all_some] at h
    simp [h]

theorem Mech.rest_printEntry (m : Mech) :
    m.rest.queue.printEntry = (m.queue.entries.drop m.queue.printAt).find? Entry.forPrint := by
  by_cases h : m.punch.switch = .off
  · rw [Mech.rest_of_off h]
    exact (CopyQueue.movedTo_printEntry ..).trans (getElem?_passOver ..)
  · rw [Mech.rest_of_on h]
    exact (CopyQueue.movedTo_printEntry ..).trans (getElem?_passOver ..)

theorem Mech.rest_punchEntry {m : Mech} (h : m.punch.switch ≠ .off) :
    m.rest.queue.punchEntry = (m.queue.entries.drop m.queue.punchAt).find? Entry.forPunch := by
  rw [Mech.rest_of_on h]
  exact (CopyQueue.movedTo_punchEntry ..).trans (getElem?_passOver ..)

/-- At OFF the punch pointer, where it stands ahead, keeps its entry (R100). -/
theorem find?_drop_of_rests {isFor : Entry → Bool} {entries : List Entry} {place : Nat}
    (h : entries[place]?.all isFor = true) : (entries.drop place).find? isFor = entries[place]? := by
  rw [← getElem?_passOver, passOver_of_rests h]

/-! ### Takes -/

theorem Mech.printTake_of_off {m : Mech} (h : m.punch.switch = .off) : m.printTake =
    let place := passOver Entry.forPrint m.queue.entries (m.queue.printAt + 1)
    { m with
      queue := m.queue.movedTo place (max m.queue.punchAt place)
      punch := { m.punch with
        inRun := inRunPast m.punch.inRun
          ((m.queue.entries.drop m.queue.punchAt).take (place - m.queue.punchAt)) } } :=
  Mech.rest_of_off (m := { m with queue := { m.queue with printAt := m.queue.printAt + 1 } }) h

theorem Mech.printTake_of_on {m : Mech} (h : m.punch.switch ≠ .off) : m.printTake = { m with
    queue := m.queue.movedTo (passOver Entry.forPrint m.queue.entries (m.queue.printAt + 1))
      (passOver Entry.forPunch m.queue.entries m.queue.punchAt) } :=
  Mech.rest_of_on (m := { m with queue := { m.queue with printAt := m.queue.printAt + 1 } }) h

theorem Mech.punchTake_of_on {m : Mech} (h : m.punch.switch ≠ .off) : m.punchTake = { m with
    queue := m.queue.movedTo (passOver Entry.forPrint m.queue.entries m.queue.printAt)
      (passOver Entry.forPunch m.queue.entries (m.queue.punchAt + 1)) } :=
  Mech.rest_of_on (m := { m with queue := { m.queue with punchAt := m.queue.punchAt + 1 } }) h

theorem Mech.printTake_printEntry (m : Mech) :
    m.printTake.queue.printEntry = (m.queue.entries.drop (m.queue.printAt + 1)).find? Entry.forPrint :=
  Mech.rest_printEntry _

theorem Mech.punchTake_punchEntry {m : Mech} (h : m.punch.switch ≠ .off) :
    m.punchTake.queue.punchEntry = (m.queue.entries.drop (m.queue.punchAt + 1)).find? Entry.forPunch :=
  Mech.rest_punchEntry (m := { m with queue := { m.queue with punchAt := m.queue.punchAt + 1 } }) h

/-- A take of the printer with the punch at its entry: the punch's entry stays (R99, R101). -/
theorem Mech.printTake_of_rests {m : Mech} (hm : m.pointersRest) (h : m.punch.switch ≠ .off) :
    m.printTake = { m with
      queue := m.queue.movedTo (m.queue.placeFrom Entry.forPrint (m.queue.printAt + 1)) m.queue.punchAt } ∧
    m.printTake.queue.punchEntry = m.queue.punchEntry := by
  obtain ⟨-, -, -, -, hpunch, -, -⟩ := hm
  have hstay := passOver_of_rests (hpunch h)
  have he := Mech.printTake_of_on h
  rw [hstay] at he
  exact ⟨he, by rw [he]; exact CopyQueue.movedTo_punchEntry ..⟩

/-- A take of the punch with the printer at its entry: the printer's entry stays (R99, R101). -/
theorem Mech.punchTake_of_rests {m : Mech} (hm : m.pointersRest) (h : m.punch.switch ≠ .off) :
    m.punchTake = { m with
      queue := m.queue.movedTo m.queue.printAt (m.queue.placeFrom Entry.forPunch (m.queue.punchAt + 1)) } ∧
    m.punchTake.queue.printEntry = m.queue.printEntry := by
  obtain ⟨-, -, -, hprint, -, -, -⟩ := hm
  have hstay := passOver_of_rests hprint
  have he := Mech.punchTake_of_on h
  rw [hstay] at he
  exact ⟨he, by rw [he]; exact CopyQueue.movedTo_printEntry ..⟩

end Sys2Proof.Machine
end

section
/-! The printer's moves in queue order (sections 6.2, 6.3, 6.6, 6.9), and that it goes on until nothing more can be
done. -/

namespace Sys2Proof.Machine

open Sys2Proof

/-! ### Issuing -/

theorem Printer.issue_ret_free {r : Printer} (p : Params) (now : Ticks) (h : r.carriage = .free) :
    r.issue p now .ret = some (if r.leftMargin then { r with column := some 1, atMargin := false }
      else { r with carriage := .ret (now + 1200 * p.returnTimeout) true }) := by
  rw [Printer.issue, if_pos h, ms_eq, ← Nat.mul_assoc]

theorem Printer.issue_held {r : Printer} (p : Params) (now : Ticks) (h : r.carriage ≠ .free) :
    r.issue p now .ret = none ∧ r.issue p now .space = none := by
  simp [Printer.issue, h]

/-- A SPACE below the line's end steps, with ALPHA under unshift-on-space (R114, R115). -/
theorem Printer.issue_space_below {r : Printer} {c : Nat} (p : Params) (now : Ticks) (h : r.carriage = .free)
    (hc : r.column = some c) (hlt : c < p.lineLength) : r.issue p now .space = some { r with
      case := if p.unshift = true then .alpha else r.case
      carriage := .step (now + 120 * p.carriageStep)
      column := some (c + 1), leftMargin := false } := by
  by_cases hu : p.unshift = true <;> simp [Printer.issue, h, hu, Printer.belowEnd, hc, hlt, ms_eq]

theorem Printer.issue_space_end {r : Printer} {c : Nat} (p : Params) (now : Ticks) (h : r.carriage = .free)
    (hc : r.column = some c) (hle : p.lineLength ≤ c) : r.issue p now .space = some { r with
      case := if p.unshift = true then .alpha else r.case, atMargin := true } := by
  have hlt : ¬ c < p.lineLength := Nat.not_lt.mpr hle
  by_cases hu : p.unshift = true <;> simp [Printer.issue, h, hu, Printer.belowEnd, hc, hlt]

theorem Printer.issue_spec (p : Params) (now : Ticks) (r : Printer) :
    (∀ target, r.issue p now (.strike target) = none) ∧
    (r.platen ≠ .free → r.issue p now .newline = none) ∧
    (r.platen = .free → r.issue p now .newline = some { r with platen := .feed (now + 120 * p.lineTime) }) :=
  ⟨fun _ => rfl, fun h => if_neg h, fun h => by rw [Printer.issue, if_pos h, ms_eq]⟩

/-! ### One move -/

theorem Mech.printing_iff (m : Mech) : m.printing = true ↔
    (m.printer.state = .idle ∨ m.printer.state = .active) ∧ m.printer.stop = .none ∧ m.motor.state = .running := by
  simp [Mech.printing, and_assoc]

theorem Printer.returning_iff (r : Printer) : r.returning = true ↔ ∃ t, r.carriage = .ret t true := by
  unfold Printer.returning
  split
  · rename_i t live h
    simp [h]
  · rename_i hne
    simp only [Bool.false_eq_true, false_iff, not_exists]
    exact fun t h => hne t true h

theorem Printer.needsEstablish_iff (r : Printer) :
    r.needsEstablish = true ↔ r.column = none ∧ ¬ ∃ t, r.carriage = .ret t true := by
  rw [← Printer.returning_iff]
  simp [Printer.needsEstablish]

theorem Printer.needsWrap_iff (p : Params) (r : Printer) (op : PrintOp) : r.needsWrap p op = true ↔
    r.atMargin = true ∧ p.overprint = false ∧ ((¬ ∃ t, r.carriage = .ret t true) ∨ r.wrapOwed = true) ∧
      (op = .space ∨ ∃ target, op = .strike target) := by
  rw [← Printer.returning_iff]
  cases op <;> simp [Printer.needsWrap, and_assoc]

section
variable {p : Params} {now : Ticks} {m : Mech}

theorem Mech.printStep_of_not_printing (h : m.printing = false) : m.printStep p now = none := by
  simp [Mech.printStep, h]

theorem Mech.printStep_internal (h : m.printing = true) {op : PrintOp} {rest : List PrintOp}
    (hi : m.printer.internals = op :: rest) : m.printStep p now =
      (m.printer.issue p now op).map fun r' => { m with printer := { r' with internals := rest } } := by
  simp only [Mech.printStep, h, hi, Bool.not_true, Bool.false_eq_true, if_false]

theorem Mech.printStep_establish (h : m.printing = true) (hi : m.printer.internals = [])
    (he : m.printer.needsEstablish = true) :
    m.printStep p now = some { m with printer := { m.printer with internals := [.ret] } } := by
  simp only [Mech.printStep, h, hi, he, Bool.not_true, Bool.false_eq_true, if_false, if_true]

theorem Mech.printStep_wrap (h : m.printing = true) (hi : m.printer.internals = [])
    (he : m.printer.needsEstablish = false) {op : PrintOp} (hh : m.printer.head = some op)
    (hw : m.printer.needsWrap p op = true) : m.printStep p now =
      some { m with printer := { m.printer with internals := [.ret, .newline], wrapOwed := false } } := by
  simp only [Mech.printStep, h, hi, he, hh, hw, Bool.not_true, Bool.false_eq_true, if_false, if_true]

theorem Mech.printStep_head (h : m.printing = true) (hi : m.printer.internals = [])
    (he : m.printer.needsEstablish = false) {op : PrintOp} (hh : m.printer.head = some op)
    (hw : m.printer.needsWrap p op = false) : m.printStep p now =
      (m.printer.issue p now op).map fun r' =>
        Mech.printTake { m with printer := { r' with head := none, heldControl := false } } := by
  simp only [Mech.printStep, h, hi, he, hh, hw, Bool.not_true, Bool.false_eq_true, if_false]

theorem Mech.printStep_tail (h : m.printing = true) (hi : m.printer.internals = [])
    (he : m.printer.needsEstablish = false) (hh : m.printer.head = none) (hq : m.queue.printEntry = none) :
    m.printStep p now = none := by
  simp only [Mech.printStep, h, hi, he, hh, hq, Bool.not_true, Bool.false_eq_true, if_false]

theorem Mech.printStep_entry (h : m.printing = true) (hi : m.printer.internals = [])
    (he : m.printer.needsEstablish = false) (hh : m.printer.head = none) {e : Entry}
    (hq : m.queue.printEntry = some e) : m.printStep p now =
      some (((m.printer.instant now e).map fun r' => Mech.printTake { m with printer := r' }).getD
        { m with printer := { m.printer with head := some (m.printer.operation e) } }) := by
  simp only [Mech.printStep, h, hi, he, hh, hq, Bool.not_true, Bool.false_eq_true, if_false]
  cases m.printer.instant now e <;> rfl

end

/-! ### One entry -/

theorem Printer.instant_held {r : Printer} (h : r.heldControl = true) (now : Ticks) (c : Code) (d : Dest) :
    r.instant now (.char c false d) = some { r with
      heldControl := false, bell := if c = 4 then some (now + 12000) else r.bell } := by
  by_cases h4 : c = 4 <;> simp [Printer.instant, h, h4, Printer.ring, Config.bellTime, Config.ticksPerMs]

theorem Printer.instant_free {r : Printer} (h : r.heldControl = false) (now : Ticks) (c : Code) (d : Dest) :
    r.instant now (.char c false d) =
      if c = 25 then some { r with heldControl := true }
      else if c = 29 then some { r with case := .numeric }
      else if c = 30 then some { r with case := .alpha }
      else if c = 0 ∨ c = 31 then some r
      else none := by
  simp only [Printer.instant, h, Bool.false_eq_true, if_false]

theorem Printer.operation_char (r : Printer) (c : Code) (d : Dest) : r.operation (.char c false d) =
    if c = 26 then .space else if c = 27 then .newline else if c = 28 then .ret
    else .strike (if r.case = .alpha then c.val - 1 else 23 + c.val) := by
  have ht : strikeTarget r.case c = if r.case = .alpha then c.val - 1 else 23 + c.val := by
    cases hc : r.case
    · simp [strikeTarget]
    · simp only [strikeTarget, reduceCtorEq, if_false]; omega
  simp only [Printer.operation, Bool.false_eq_true, if_false, ht]

/-- An undamaged code at the print pointer (R108, R109, R114). -/
theorem Mech.printStep_char {p : Params} {now : Ticks} {m : Mech} (h : m.printing = true)
    (hi : m.printer.internals = []) (he : m.printer.needsEstablish = false) (hh : m.printer.head = none) {c : Code}
    {d : Dest} (hq : m.queue.printEntry = some (.char c false d)) :
    let r := m.printer
    let taken (r' : Printer) : Option Mech := some (Mech.printTake { m with printer := r' })
    let forms (op : PrintOp) : Option Mech := some { m with printer := { r with head := some op } }
    m.printStep p now =
      if r.heldControl = true then
        taken { r with heldControl := false, bell := if c = 4 then some (now + 12000) else r.bell }
      else if c = 25 then taken { r with heldControl := true }
      else if c = 29 then taken { r with case := .numeric }
      else if c = 30 then taken { r with case := .alpha }
      else if c = 0 ∨ c = 31 then taken r
      else if c = 26 then forms .space
      else if c = 27 then forms .newline
      else if c = 28 then forms .ret
      else forms (.strike (if r.case = .alpha then c.val - 1 else 23 + c.val)) := by
  dsimp only
  rw [Mech.printStep_entry h hi he hh hq]
  by_cases hheld : m.printer.heldControl = true
  · rw [Printer.instant_held hheld, if_pos hheld]; rfl
  · rw [Printer.instant_free (Bool.not_eq_true _ ▸ hheld), Printer.operation_char, if_neg hheld]
    by_cases h25 : c = 25
    · simp only [if_pos h25]; rfl
    by_cases h29 : c = 29
    · simp only [if_neg h25, if_pos h29]; rfl
    by_cases h30 : c = 30
    · simp only [if_neg h25, if_neg h29, if_pos h30]; rfl
    by_cases h0 : c = 0 ∨ c = 31
    · simp only [if_neg h25, if_neg h29, if_neg h30, if_pos h0]; rfl
    simp only [if_neg h25, if_neg h29, if_neg h30, if_neg h0]
    by_cases h26 : c = 26
    · simp only [if_pos h26]; rfl
    by_cases h27 : c = 27
    · simp only [if_neg h26, if_pos h27]; rfl
    by_cases h28 : c = 28
    · simp only [if_neg h26, if_neg h27, if_pos h28]; rfl
    simp only [if_neg h26, if_neg h27, if_neg h28]; rfl

theorem Entry.forPrint_false_iff (e : Entry) : e.forPrint = false ↔
    (∃ c damaged, e = .char c damaged .punch) ∨ ∃ n, e = .gap n .punch := by
  cases e <;> simp [Entry.forPrint]

theorem Entry.forPunch_false_iff (e : Entry) : e.forPunch = false ↔
    (∃ c damaged, e = .char c damaged .print) ∨ ∃ n, e = .gap n .print := by
  cases e <;> simp [Entry.forPunch]

end Sys2Proof.Machine
end

section
/-! The readers go on until nothing more can be done (R106, R128). -/

namespace Sys2Proof.Machine

open Sys2Proof

/-! ### What a take leaves to be read -/

/-- The entries from the print pointer on. -/
def CopyQueue.toPrint (q : CopyQueue) : Nat := q.entries.length - q.printAt

/-- The entries from the punch pointer on. -/
def CopyQueue.toPunch (q : CopyQueue) : Nat := q.entries.length - q.punchAt

theorem CopyQueue.movedTo_toPrint (q : CopyQueue) (print punch : Nat) :
    (q.movedTo print punch).toPrint = q.entries.length - print := by
  simp only [CopyQueue.toPrint, CopyQueue.movedTo, List.length_drop]
  omega

theorem CopyQueue.movedTo_toPunch (q : CopyQueue) (print punch : Nat) :
    (q.movedTo print punch).toPunch = q.entries.length - punch := by
  simp only [CopyQueue.toPunch, CopyQueue.movedTo, List.length_drop]
  omega

theorem Mech.printTake_toPrint (m : Mech) : m.printTake.queue.toPrint ≤ m.queue.toPrint - 1 := by
  have hle := le_passOver Entry.forPrint m.queue.entries (m.queue.printAt + 1)
  have hmoved : m.printTake.queue.toPrint =
      m.queue.entries.length - passOver Entry.forPrint m.queue.entries (m.queue.printAt + 1) := by
    by_cases h : m.punch.switch = .off
    · rw [Mech.printTake_of_off h]; exact CopyQueue.movedTo_toPrint ..
    · rw [Mech.printTake_of_on h]; exact CopyQueue.movedTo_toPrint ..
  rw [hmoved, CopyQueue.toPrint]
  omega

theorem Mech.punchTake_toPunch {m : Mech} (h : m.punch.switch ≠ .off) :
    m.punchTake.queue.toPunch ≤ m.queue.toPunch - 1 := by
  have hle := le_passOver Entry.forPunch m.queue.entries (m.queue.punchAt + 1)
  rw [Mech.punchTake_of_on h]
  refine (CopyQueue.movedTo_toPunch ..).le.trans ?_
  simp only [CopyQueue.toPunch]
  omega

theorem CopyQueue.toPrint_pos {q : CopyQueue} {e : Entry} (h : q.printEntry = some e) : 1 ≤ q.toPrint := by
  have := (List.getElem?_eq_some_iff.mp h).1
  rw [CopyQueue.toPrint]
  omega

theorem CopyQueue.toPunch_pos {q : CopyQueue} {e : Entry} (h : q.punchEntry = some e) : 1 ≤ q.toPunch := by
  have := (List.getElem?_eq_some_iff.mp h).1
  rw [CopyQueue.toPunch]
  omega

/-! ### A measure of the printer's moves -/

/-- The internal operations are what is left of a wrap or of an establishing RETURN (R117, R120). -/
def Printer.wraps (r : Printer) : Prop :=
  r.internals = [] ∨ r.internals = [.ret] ∨ r.internals = [.newline] ∨ r.internals = [.ret, .newline]

/-- A RETURN is placed or in flight. -/
def Printer.willReturn (r : Printer) : Bool := r.returning || r.internals.contains .ret

/-- Moves that the operation at the head may still call for: the wrap, its two operations, and its issue. -/
def Printer.headMoves (r : Printer) : Nat :=
  if r.head = none then 0
  else if r.wrapOwed || (!r.willReturn && r.atMargin) then 4 else 1

/-- Moves that establishing the column may still call for. -/
def Printer.establishMoves (r : Printer) : Nat := if r.column = none ∧ r.willReturn = false then 2 else 0

/-- An upper bound of the moves of a printer that has only a wrap or an establishing RETURN placed. -/
def Mech.movesLeft (m : Mech) : Nat :=
  5 * (m.queue.toPrint - if m.printer.head = none then 0 else 1) + m.printer.headMoves +
    m.printer.internals.length + m.printer.establishMoves

theorem Mech.movesLeft_le {m : Mech} (h : m.printer.internals = []) : m.movesLeft ≤ 5 * m.queue.toPrint + 6 := by
  have hh : m.printer.headMoves ≤ 4 := by unfold Printer.headMoves; split <;> [omega; (split <;> omega)]
  have he : m.printer.establishMoves ≤ 2 := by unfold Printer.establishMoves; split <;> omega
  simp only [Mech.movesLeft, h, List.length_nil]
  omega

theorem Printer.headMoves_congr {r r' : Printer} (hh : r'.head = r.head) (ho : r'.wrapOwed = r.wrapOwed)
    (hm : (!r'.willReturn && r'.atMargin) = (!r.willReturn && r.atMargin)) : r'.headMoves = r.headMoves := by
  simp only [Printer.headMoves, hh, ho, hm]

/-- A RETURN issued: the column is known or will be, and its wrap's head is not wrapped again. -/
theorem Printer.ret_moves {p : Params} {now : Ticks} {r r' : Printer} {rest : List PrintOp}
    (hi : r.internals = .ret :: rest) (h : r.issue p now .ret = some r') :
    ({ r' with internals := rest } : Printer).headMoves = r.headMoves ∧
      ({ r' with internals := rest } : Printer).establishMoves = r.establishMoves := by
  have hfree : r.carriage = .free := by
    by_contra hne
    rw [(Printer.issue_held p now hne).1] at h
    exact absurd h nofun
  have hwill : r.willReturn = true := by simp [Printer.willReturn, hi]
  rw [Printer.issue_ret_free p now hfree] at h
  obtain rfl := Option.some.inj h
  by_cases hl : r.leftMargin = true
  · refine ⟨Printer.headMoves_congr ?_ ?_ ?_, ?_⟩ <;> simp [hl, hwill, Printer.establishMoves]
  · have hwill' : ({ r with
        carriage := .ret (now + 1200 * p.returnTimeout) true, internals := rest } : Printer).willReturn = true := by
      simp [Printer.willReturn, Printer.returning]
    simp only [if_neg hl]
    refine ⟨Printer.headMoves_congr rfl rfl ?_, ?_⟩
    · rw [hwill', hwill]
    · simp only [Printer.establishMoves, hwill', hwill]

theorem Printer.newline_issued {p : Params} {now : Ticks} {r r' : Printer} (h : r.issue p now .newline = some r') :
    ∃ platen, r' = { r with platen := platen } := by
  obtain ⟨-, hheld, hfree⟩ := Printer.issue_spec p now r
  by_cases hp : r.platen = .free
  · exact ⟨_, (Option.some.inj ((hfree hp).symm.trans h)).symm⟩
  · exact absurd ((hheld hp).symm.trans h) nofun

theorem Printer.newline_moves {p : Params} {now : Ticks} {r r' : Printer} (hi : r.internals = [.newline])
    (h : r.issue p now .newline = some r') :
    ({ r' with internals := [] } : Printer).headMoves = r.headMoves ∧
      ({ r' with internals := [] } : Printer).establishMoves = r.establishMoves := by
  obtain ⟨platen, rfl⟩ := Printer.newline_issued h
  have hwill : ({ r with platen := platen, internals := [] } : Printer).willReturn = r.willReturn := by
    simp [Printer.willReturn, Printer.returning, hi]
  refine ⟨Printer.headMoves_congr rfl rfl ?_, ?_⟩
  · rw [hwill]
  · simp only [Printer.establishMoves, hwill]

/-- An internal operation issued: what is left of the wrap, and one move less. -/
theorem Printer.internal_moves {p : Params} {now : Ticks} {r r' : Printer} {op : PrintOp} {rest : List PrintOp}
    (hw : r.wraps) (hi : r.internals = op :: rest) (h : r.issue p now op = some r') :
    ({ r' with internals := rest } : Printer).wraps ∧
      ({ r' with internals := rest } : Printer).headMoves = r.headMoves ∧
      ({ r' with internals := rest } : Printer).establishMoves = r.establishMoves := by
  rcases hw with hw | hw | hw | hw
  · exact absurd (hw.symm.trans hi) nofun
  · obtain ⟨rfl, rfl⟩ := List.cons.inj (hw.symm.trans hi)
    exact ⟨.inl rfl, Printer.ret_moves hi h⟩
  · obtain ⟨rfl, rfl⟩ := List.cons.inj (hw.symm.trans hi)
    exact ⟨.inl rfl, Printer.newline_moves hi h⟩
  · obtain ⟨rfl, rfl⟩ := List.cons.inj (hw.symm.trans hi)
    exact ⟨.inr (.inr (.inl rfl)), Printer.ret_moves hi h⟩

/-- With the head issued or an entry taken, nothing of a wrap stands, and at most the establishing is left. -/
theorem Mech.movesLeft_of_no_head {m : Mech} (hi : m.printer.internals = []) (hh : m.printer.head = none) :
    m.movesLeft = 5 * m.queue.toPrint + m.printer.establishMoves := by
  simp [Mech.movesLeft, hi, hh, Printer.headMoves]

theorem Printer.establishMoves_of_not {r : Printer} (h : r.needsEstablish = false) : r.establishMoves = 0 := by
  refine if_neg fun ⟨hc, hw⟩ => ?_
  simp only [Printer.willReturn, Bool.or_eq_false_iff] at hw
  simp [Printer.needsEstablish, hc, hw.1] at h

/-- A column that is known, or will be, stays so behind an issue. -/
theorem Printer.issue_establish {p : Params} {now : Ticks} {r r' : Printer} {op : PrintOp}
    (h : r.issue p now op = some r') (he : r.needsEstablish = false) : r'.needsEstablish = false := by
  cases op with
  | strike target => exact absurd h nofun
  | newline => obtain ⟨platen, rfl⟩ := Printer.newline_issued h; exact he
  | ret =>
    by_cases hc : r.carriage = .free
    · rw [Printer.issue_ret_free p now hc] at h
      obtain rfl := Option.some.inj h
      split <;> simp [Printer.needsEstablish, Printer.returning]
    · exact absurd ((Printer.issue_held p now hc).1.symm.trans h) nofun
  | space =>
    by_cases hc : r.carriage = .free
    · have hcol : r.column ≠ none := fun hn => by
        simp [Printer.needsEstablish, hn, Printer.returning, hc] at he
      obtain ⟨c, hcol⟩ := Option.ne_none_iff_exists'.mp hcol
      by_cases hlt : c < p.lineLength
      · rw [Printer.issue_space_below p now hc hcol hlt] at h
        obtain rfl := Option.some.inj h
        simp [Printer.needsEstablish]
      · rw [Printer.issue_space_end p now hc hcol (Nat.not_lt.mp hlt)] at h
        obtain rfl := Option.some.inj h
        simp [Printer.needsEstablish, hcol]
    · exact absurd ((Printer.issue_held p now hc).2.symm.trans h) nofun

/-- An entry that is taken at once touches the held CONTROL, the case and the bell only (R108, R109). -/
theorem Printer.instant_eq {now : Ticks} {r r' : Printer} {e : Entry} (h : r.instant now e = some r') :
    ∃ held case bell, r' = { r with heldControl := held, case := case, bell := bell } := by
  unfold Printer.instant at h
  split at h
  · exact ⟨_, _, _, (Option.some.inj h).symm⟩
  · exact ⟨_, _, _, (Option.some.inj h).symm⟩
  · exact absurd h nofun
  · simp only [Option.ite_none_left_eq_some] at h
    obtain ⟨-, h⟩ := h
    split at h
    · obtain rfl := Option.some.inj h
      split <;> exact ⟨_, _, _, rfl⟩
    · split at h
      · exact ⟨_, _, _, (Option.some.inj h).symm⟩
      · split at h
        · exact ⟨_, _, _, (Option.some.inj h).symm⟩
        · split at h
          · exact ⟨_, _, _, (Option.some.inj h).symm⟩
          · simp only [Option.ite_none_right_eq_some] at h
            exact ⟨_, _, _, (Option.some.inj h.2).symm⟩

theorem Printer.instant_same {now : Ticks} {r r' : Printer} {e : Entry} (h : r.instant now e = some r') :
    r'.internals = r.internals ∧ r'.head = r.head ∧ r'.needsEstablish = r.needsEstablish := by
  obtain ⟨held, case, bell, rfl⟩ := Printer.instant_eq h
  exact ⟨rfl, rfl, rfl⟩

theorem Mech.movesLeft_take {m : Mech} {r : Printer} (hi : r.internals = []) (hh : r.head = none)
    (he : r.needsEstablish = false) :
    (Mech.printTake { m with printer := r }).movesLeft ≤ 5 * (m.queue.toPrint - 1) := by
  have hle := Mech.printTake_toPrint { m with printer := r }
  rw [Mech.movesLeft_of_no_head (by simpa using hi) (by simpa using hh), Mech.printTake_printer,
    Printer.establishMoves_of_not he]
  exact Nat.mul_le_mul_left 5 hle

/-- A printer with the same head and fewer moves. -/
theorem Mech.movesLeft_lt {m : Mech} {r : Printer} {a b n : Nat} (hhead : r.head = m.printer.head)
    (ha : r.headMoves ≤ a) (hb : r.establishMoves ≤ b) (hn : r.internals.length = n)
    (h : a + n + b < m.printer.headMoves + m.printer.internals.length + m.printer.establishMoves) :
    ({ m with printer := r } : Mech).movesLeft < m.movesLeft := by
  simp only [Mech.movesLeft, hhead, hn]
  omega

theorem Mech.printStep_moves {p : Params} {now : Ticks} {m m' : Mech} (hw : m.printer.wraps)
    (h : m.printStep p now = some m') : m'.printer.wraps ∧ m'.movesLeft < m.movesLeft := by
  obtain ⟨-, ⟨op, rest, r, hi, hr, rfl⟩ | ⟨hi, he, rfl⟩ | ⟨op, hi, he, hh, hneeds, rfl⟩ |
    ⟨op, r, hi, he, hh, -, hr, rfl⟩ | ⟨e, r, hi, he, hh, hq, hr, rfl⟩ | ⟨e, hi, he, hh, hq, -, rfl⟩⟩ :=
    Mech.printStep_cases h
  · obtain ⟨hw', hhead, hest⟩ := Printer.internal_moves hw hi hr
    obtain ⟨-, -, -, -, -, -, -, -, hhd⟩ := Printer.issue_frame hr
    exact ⟨hw', Mech.movesLeft_lt (n := rest.length) hhd hhead.le hest.le rfl (by rw [hi, List.length_cons]; omega)⟩
  · refine ⟨.inr (.inl rfl), ?_⟩
    obtain ⟨hc, hnot⟩ := (Printer.needsEstablish_iff _).mp he
    have hret : m.printer.returning = false := Bool.eq_false_iff.mpr fun h => hnot ((Printer.returning_iff _).mp h)
    have hbefore : m.printer.establishMoves = 2 := if_pos ⟨hc, by simp [Printer.willReturn, hret, hi]⟩
    have hafter : ({ m.printer with internals := [.ret] } : Printer).establishMoves = 0 :=
      if_neg fun ⟨_, hno⟩ => by simp [Printer.willReturn] at hno
    have hhead : ({ m.printer with internals := [.ret] } : Printer).headMoves ≤ m.printer.headMoves := by
      simp only [Printer.headMoves, Printer.willReturn, hret, hi]
      cases m.printer.head <;> cases m.printer.wrapOwed <;> cases m.printer.atMargin <;> simp
    exact Mech.movesLeft_lt rfl hhead hafter.le rfl (by rw [hbefore, hi]; simp)
  · refine ⟨.inr (.inr (.inr rfl)), ?_⟩
    obtain ⟨hmargin, -, howed, -⟩ := (Printer.needsWrap_iff ..).mp hneeds
    have hest : ({ m.printer with internals := [.ret, .newline], wrapOwed := false } : Printer).establishMoves = 0 :=
      if_neg fun ⟨_, hno⟩ => by simp [Printer.willReturn] at hno
    have hbefore : m.printer.headMoves = 4 := by
      have hcond : (m.printer.wrapOwed || (!m.printer.willReturn && m.printer.atMargin)) = true := by
        rcases howed with hret | howed
        · have hret : m.printer.returning = false := Bool.eq_false_iff.mpr fun h => hret ((Printer.returning_iff _).mp h)
          simp [Printer.willReturn, hret, hi, hmargin]
        · simp [howed]
      rw [Printer.headMoves, hh, if_neg nofun, if_pos hcond]
    have hafter : ({ m.printer with internals := [.ret, .newline], wrapOwed := false } : Printer).headMoves = 1 := by
      simp [Printer.headMoves, hh, Printer.willReturn]
    exact Mech.movesLeft_lt (n := 2) rfl hafter.le hest.le rfl (by rw [hbefore, hi]; simp only [List.length_nil]; omega)
  · obtain ⟨-, -, -, -, -, -, -, hint, -⟩ := Printer.issue_frame hr
    have hint' : r.internals = [] := hint.trans hi
    have he' : r.needsEstablish = false := Printer.issue_establish hr he
    refine ⟨.inl (by simpa using hint'), (Mech.movesLeft_take (r := { r with head := none, heldControl := false }) hint' rfl
      he').trans_lt ?_⟩
    have hpos : 1 ≤ m.printer.headMoves := by rw [Printer.headMoves, hh, if_neg nofun]; split <;> omega
    simp only [Mech.movesLeft, hh, reduceCtorEq, if_false]
    omega
  · obtain ⟨hint, hhead, hest⟩ := Printer.instant_same hr
    have hint' : r.internals = [] := hint.trans hi
    have hpos := CopyQueue.toPrint_pos hq
    refine ⟨.inl (by simpa using hint'), (Mech.movesLeft_take hint' (hhead.trans hh) (hest.trans he)).trans_lt ?_⟩
    simp only [Mech.movesLeft, hh, if_true]
    omega
  · have hpos := CopyQueue.toPrint_pos hq
    refine ⟨.inl hi, ?_⟩
    have hhead : ({ m.printer with head := some (m.printer.operation e) } : Printer).headMoves ≤ 4 := by
      rw [Printer.headMoves, if_neg nofun]; split <;> omega
    have hbefore : m.printer.headMoves = 0 := if_pos hh
    have hest : ({ m.printer with head := some (m.printer.operation e) } : Printer).establishMoves =
      m.printer.establishMoves := rfl
    have hafter : ({ m with printer := { m.printer with head := some (m.printer.operation e) } } : Mech).movesLeft =
        5 * (m.queue.toPrint - 1) +
          ({ m.printer with head := some (m.printer.operation e) } : Printer).headMoves +
          m.printer.internals.length + m.printer.establishMoves := by
      rw [Mech.movesLeft, hest]; rfl
    rw [hafter, Mech.movesLeft, hbefore, if_pos hh]
    omega

/-! ### The printer's run -/

theorem Mech.printRun_stops {p : Params} {now : Ticks} {n : Nat} {m : Mech} (h : m.printer.wraps)
    (hn : m.movesLeft ≤ n) : (m.printRun p now n).printStep p now = none := by
  induction n generalizing m with
  | zero =>
    cases hs : m.printStep p now with
    | none => exact hs
    | some m' =>
      have := (Mech.printStep_moves h hs).2
      omega
  | succ n ih =>
    rw [Mech.printRun]
    cases hs : m.printStep p now with
    | none => exact hs
    | some m' =>
      obtain ⟨hw', hlt⟩ := Mech.printStep_moves h hs
      exact ih hw' (by omega)

/-- A printer with nothing that it did not place itself goes on to the end. -/
theorem Mech.printRun_of_fuel {p : Params} {now : Ticks} (k n : Nat) {m : Mech} (hi : m.printer.internals.length ≤ k)
    (hn : 5 * m.queue.toPrint + 6 + k ≤ n) : (m.printRun p now n).printStep p now = none := by
  induction k generalizing m n with
  | zero =>
    have hnil : m.printer.internals = [] := List.length_eq_zero_iff.mp (Nat.le_zero.mp hi)
    exact Mech.printRun_stops (.inl hnil) ((Mech.movesLeft_le hnil).trans (by omega))
  | succ k ih =>
    match hint : m.printer.internals with
    | [] => exact Mech.printRun_stops (.inl hint) ((Mech.movesLeft_le hint).trans (by omega))
    | op :: rest =>
      obtain ⟨n, rfl⟩ : ∃ n', n = n' + 1 := ⟨n - 1, by omega⟩
      rw [Mech.printRun]
      cases hs : m.printStep p now with
      | none => exact hs
      | some m' =>
        have hp : m.printing = true := (Mech.printStep_cases hs).1
        rw [Mech.printStep_internal hp hint] at hs
        obtain ⟨r', hr', rfl⟩ := Option.map_eq_some_iff.mp hs
        rw [hint, List.length_cons] at hi
        exact ih n (m := { m with printer := { r' with internals := rest } }) (by exact Nat.le_of_succ_le_succ hi)
          (by dsimp only; omega)

end Sys2Proof.Machine
end

section
/-! What the readers have done once the mechanism has settled (R106, R128), the printer's takes and the punch's
(O16, O56). -/

namespace Sys2Proof.Machine

open Sys2Proof

/-! ### The punch's run -/

theorem Mech.punching_iff (m : Mech) : m.punching = true ↔
    (m.punch.state = .idle ∨ m.punch.state = .cycling ∨ m.punch.state = .tapeLowFinish ∧ m.punch.inRun = true) ∧
      m.motor.state = .running ∧ m.punch.switch ≠ .off ∧ m.punch.feed = .none ∧ m.punch.cycle = none := by
  simp [Mech.punching, or_assoc, and_assoc]

theorem Mech.punchStep_none_iff (p : Params) (now : Ticks) (m : Mech) :
    m.punchStep p now = none ↔ m.punching = false ∨ m.queue.punchEntry = none := by
  unfold Mech.punchStep
  cases m.punching <;> cases m.queue.punchEntry <;> simp

/-- With the switch away from OFF a take of the punch leaves the punch. -/
theorem Mech.punchTake_punch {m : Mech} (h : m.punch.switch ≠ .off) : m.punchTake.punch = m.punch := by
  rw [Mech.punchTake_of_on h]

/-- The entries a punch that can take may still take. -/
def Mech.takesLeft (m : Mech) : Nat := if m.punch.cycle = none then m.queue.toPunch else 0

theorem Mech.punchStep_takes {p : Params} {now : Ticks} {m m' : Mech} (h : m.punchStep p now = some m') :
    m'.takesLeft < m.takesLeft := by
  obtain ⟨hp, e, he, hstep⟩ := Mech.punchStep_cases h
  obtain ⟨-, -, hswitch, -, hcycle⟩ := (Mech.punching_iff m).mp hp
  have hpos := CopyQueue.toPunch_pos he
  have hbefore : m.takesLeft = m.queue.toPunch := if_pos hcycle
  have hleft (u : Punch) (hu : u.switch ≠ .off) : (Mech.punchTake { m with punch := u }).takesLeft =
      if u.cycle = none then (Mech.punchTake { m with punch := u }).queue.toPunch else 0 := by
    rw [Mech.takesLeft, Mech.punchTake_punch hu]
  rcases hstep with ⟨row, -, rfl⟩ | ⟨-, rfl⟩
  · have hafter : (Mech.punchTake { m with punch := { m.punch with cycle := some (Punch.cycleFor p now row) } }).takesLeft
        = 0 := (hleft _ (by exact hswitch)).trans (if_neg nofun)
    omega
  · have hle := Mech.punchTake_toPunch (m := { m with punch := { m.punch with
      inRun := e == .runStart
      state := if m.punch.state = .tapeLowFinish ∧ e = .runEnd then .tapeOut else m.punch.state } }) hswitch
    refine ((hleft _ (by exact hswitch)).trans (if_pos (by exact hcycle))).trans_lt (hle.trans_lt ?_)
    dsimp only
    omega

theorem Mech.punchRun_stops {p : Params} {now : Ticks} {n : Nat} {m : Mech} (hn : m.takesLeft ≤ n) :
    (m.punchRun p now n).punchStep p now = none := by
  induction n generalizing m with
  | zero =>
    cases hs : m.punchStep p now with
    | none => exact hs
    | some m' =>
      have := Mech.punchStep_takes hs
      omega
  | succ n ih =>
    rw [Mech.punchRun]
    cases hs : m.punchStep p now with
    | none => exact hs
    | some m' => exact ih (Nat.le_of_lt_succ ((Mech.punchStep_takes hs).trans_le hn))

/-! ### After the readers -/

/-- Issuing does not look at the printer's state. -/
theorem Printer.issue_state (p : Params) (now : Ticks) (r : Printer) (op : PrintOp) (st : PrinterState) :
    Printer.issue p now { r with state := st } op = (r.issue p now op).map fun r' => { r' with state := st } := by
  cases op with
  | strike target => rfl
  | newline => simp only [Printer.issue]; split <;> rfl
  | ret => simp only [Printer.issue]; split <;> [(split <;> rfl); rfl]
  | space =>
    simp only [Printer.issue]
    split <;> [skip; rfl]
    by_cases hu : p.unshift = true <;> simp only [hu, if_true, if_false, Bool.false_eq_true, Printer.belowEnd] <;>
      split <;> split <;> simp_all

/-- A printer that could do nothing can do nothing with no new entry at its pointer. -/
theorem Mech.printStep_none_of {p : Params} {now : Ticks} {m m' : Mech} {st : PrinterState}
    (h : m.printStep p now = none) (hp : m'.printing = true → m.printing = true)
    (hr : m'.printer = { m.printer with state := st })
    (hq : m.queue.printEntry = none → m'.queue.printEntry = none) : m'.printStep p now = none := by
  cases hp' : m'.printing with
  | false => exact Mech.printStep_of_not_printing hp'
  | true =>
    have hp := hp hp'
    have hi' : m'.printer.internals = m.printer.internals := by rw [hr]
    have he' : m'.printer.needsEstablish = m.printer.needsEstablish := by rw [hr]; rfl
    have hh' : m'.printer.head = m.printer.head := by rw [hr]
    have hissue (op : PrintOp) : m'.printer.issue p now op = none ↔ m.printer.issue p now op = none := by
      rw [hr, Printer.issue_state, Option.map_eq_none_iff]
    cases hi : m.printer.internals with
    | cons op rest =>
      rw [Mech.printStep_internal hp hi, Option.map_eq_none_iff] at h
      rw [Mech.printStep_internal hp' (hi'.trans hi), Option.map_eq_none_iff]
      exact (hissue op).mpr h
    | nil =>
      cases he : m.printer.needsEstablish with
      | true =>
        rw [Mech.printStep_establish hp hi he] at h
        exact absurd h nofun
      | false =>
        cases hh : m.printer.head with
        | some op =>
          cases hw : m.printer.needsWrap p op with
          | true =>
            rw [Mech.printStep_wrap hp hi he hh hw] at h
            exact absurd h nofun
          | false =>
            have hw' : m'.printer.needsWrap p op = false := by rw [hr]; exact hw
            rw [Mech.printStep_head hp hi he hh hw, Option.map_eq_none_iff] at h
            rw [Mech.printStep_head hp' (hi'.trans hi) (he'.trans he) (hh'.trans hh) hw', Option.map_eq_none_iff]
            exact (hissue op).mpr h
        | none =>
          cases hent : m.queue.printEntry with
          | some e =>
            rw [Mech.printStep_entry hp hi he hh hent] at h
            exact absurd h nofun
          | none => exact Mech.printStep_tail hp' (hi'.trans hi) (he'.trans he) (hh'.trans hh) (hq hent)

theorem Mech.punchTake_printEntry_none {m : Mech} (h : m.queue.printEntry = none) :
    m.punchTake.queue.printEntry = none := by
  have hdrop : m.queue.entries.drop m.queue.printAt = [] :=
    List.drop_eq_nil_iff.mpr (List.getElem?_eq_none_iff.mp h)
  refine (Mech.rest_printEntry _).trans ?_
  dsimp only
  rw [hdrop]
  rfl

theorem Mech.printStep_none_kept {p : Params} {now : Ticks} {m m' : Mech} (h : m.printStep p now = none)
    (hs : m.punchStep p now = some m') : m'.printStep p now = none := by
  obtain ⟨hmotor, hprinter, -, -⟩ := Mech.punchStep_frame hs
  refine Mech.printStep_none_of (st := m.printer.state) h (fun hp => ?_) hprinter fun hq => ?_
  · rw [Mech.printing_iff, hmotor, hprinter] at hp
    exact (Mech.printing_iff m).mpr hp
  · obtain ⟨-, e, -, ⟨row, -, rfl⟩ | ⟨-, rfl⟩⟩ := Mech.punchStep_cases hs <;>
      exact Mech.punchTake_printEntry_none hq

/-- After both readers have acted neither can do more. -/
theorem Mech.pump_stops {p : Params} {now : Ticks} {m : Mech} (hi : m.printer.internals.length ≤ 2) :
    (m.pump p now).printStep p now = none := by
  have hprint : (m.printRun p now m.printFuel).printStep p now = none :=
    Mech.printRun_of_fuel 2 m.printFuel hi (by simp only [Mech.printFuel, CopyQueue.toPrint]; omega)
  exact Mech.punchRun_induct (fun m => m.printStep p now = none) (fun _ _ h hs => Mech.printStep_none_kept h hs) _ _
    hprint

theorem Mech.pump_punch_stops (p : Params) (now : Ticks) (m : Mech) : (m.pump p now).punchStep p now = none := by
  refine Mech.punchRun_stops ?_
  simp only [Mech.takesLeft, Mech.punchFuel, CopyQueue.toPunch]
  split <;> omega

/-! ### After settling -/

/-- The mechanism before motor control looks at it. -/
def Mech.stood (p : Params) (now : Ticks) (m : Mech) : Mech := ((m.printStand.pump p now).printStand).punchStand

theorem Mech.settle_eq (p : Params) (now : Ticks) (m : Mech) :
    m.settle p now = ((m.stood p now).lookAtDemand p now).watchIdle p now := rfl

theorem Mech.settle_queue (p : Params) (now : Ticks) (m : Mech) :
    (m.settle p now).queue = (m.printStand.pump p now).queue := by
  simp [Mech.settle]

theorem Mech.settle_printer (p : Params) (now : Ticks) (m : Mech) :
    (m.settle p now).printer = (m.printStand.pump p now).printStand.printer := by
  simp [Mech.settle]

theorem Mech.settle_punch (p : Params) (now : Ticks) (m : Mech) :
    (m.settle p now).punch = ((m.printStand.pump p now).printStand).punchStand.punch := by
  simp [Mech.settle]

/-- The motor is RUNNING behind settling exactly where it was before. -/
theorem Mech.settle_running (p : Params) (now : Ticks) (m : Mech) :
    (m.settle p now).motor.state = .running ↔ m.motor.state = .running := by
  obtain ⟨timer, h | ⟨hoff, h⟩⟩ := m.settle_motor p now
  · rw [h]
  · rw [h, hoff]; simp

/-- A printer that prints once it stands printed before. -/
theorem Mech.printStand_of_printing {m : Mech} (h : m.printStand.printing = true) :
    m.printing = true ∧ ∃ st, m.printStand.printer = { m.printer with state := st } := by
  have hmotor := m.printStand_motor
  rw [Mech.printing_iff, hmotor] at h
  obtain ⟨hstate, hstop, hrun⟩ := h
  unfold Mech.printStand at hstate hstop ⊢
  dsimp only at hstate hstop ⊢
  split at hstate
  · rename_i hnone
    by_cases hp : m.printing = true
    · refine ⟨hp, ?_⟩
      simp only [hnone, hp, if_true]
      exact ⟨_, rfl⟩
    · simp only [hnone, if_neg hp] at hstate
      exact absurd ((Mech.printing_iff m).mpr ⟨hstate, hnone, hrun⟩) hp
  · rename_i hm
    by_cases hb : m.printer.busy = true
    · simp [hm, hb] at hstop
    · simp only [hb, Bool.false_eq_true, if_false] at hstate
      split at hstate <;> simp at hstate
  · rename_i hm
    by_cases hb : m.printer.busy = true
    · simp [hm, hb] at hstop
    · simp [hb] at hstate

theorem Mech.settle_printStep {p : Params} {now : Ticks} {m : Mech} (hi : m.printer.internals.length ≤ 2) :
    (m.settle p now).printStep p now = none := by
  have hi' : m.printStand.printer.internals.length ≤ 2 := by
    obtain ⟨st, x, h⟩ := m.printStand_printer
    rw [h]
    exact hi
  have hstop := Mech.pump_stops (p := p) (now := now) hi'
  generalize hx : m.printStand.pump p now = x at hstop
  have hprinter : (m.settle p now).printer = x.printStand.printer := by rw [Mech.settle_printer, hx]
  have hrun : (m.settle p now).motor.state = .running ↔ x.motor.state = .running := by
    rw [Mech.settle_running, ← hx, (Mech.pump_frame p now _).1, Mech.printStand_motor]
  cases hp : (m.settle p now).printing with
  | false => exact Mech.printStep_of_not_printing hp
  | true =>
    rw [Mech.printing_iff, hprinter, hrun, ← Mech.printStand_motor x, ← Mech.printing_iff] at hp
    obtain ⟨hxp, st, hst⟩ := Mech.printStand_of_printing hp
    exact Mech.printStep_none_of hstop (fun _ => hxp) (hprinter.trans hst) fun hq => by
      rw [Mech.settle_queue, hx]; exact hq

/-- A punch that can take once it stands could before. -/
theorem Mech.punchStand_of_punching {m : Mech} (h : m.punchStand.punching = true) : m.punching = true := by
  rw [Mech.punching_iff, Mech.punchStand_motor] at h
  obtain ⟨st, hst⟩ := m.punchStand_punch
  obtain ⟨hstate, hrun, hswitch, hfeed, hcycle⟩ := h
  simp only [hst] at hswitch hfeed hcycle
  refine (Mech.punching_iff m).mpr ⟨?_, hrun, hswitch, hfeed, hcycle⟩
  unfold Mech.punchStand at hstate
  dsimp only at hstate
  split at hstate
  · exact .inl ‹_›
  · exact .inr (.inl ‹_›)
  · rename_i hlow
    split at hstate
    · simp at hstate
    · exact hstate
  · exact hstate

theorem Mech.settle_punchStep (p : Params) (now : Ticks) (m : Mech) : (m.settle p now).punchStep p now = none := by
  have hstop := Mech.pump_punch_stops p now m.printStand
  generalize hx : m.printStand.pump p now = x at hstop
  have hpunch : (m.settle p now).punch = x.printStand.punchStand.punch := by rw [Mech.settle_punch, hx]
  have hrun : (m.settle p now).motor.state = .running ↔ x.motor.state = .running := by
    rw [Mech.settle_running, ← hx, (Mech.pump_frame p now _).1, Mech.printStand_motor]
  have hqueue : (m.settle p now).queue = x.queue := by rw [Mech.settle_queue, hx]
  rw [Mech.punchStep_none_iff, hqueue]
  rcases (Mech.punchStep_none_iff p now x).mp hstop with h | h
  · refine .inl (Bool.eq_false_iff.mpr fun hp => ?_)
    rw [Mech.punching_iff, hpunch, hrun] at hp
    have hp' : x.printStand.punchStand.punching = true := by
      rw [Mech.punching_iff, Mech.punchStand_motor, Mech.printStand_motor]
      exact hp
    have := Mech.punchStand_of_punching hp'
    rw [Mech.punching_iff, Mech.printStand_motor, Mech.printStand_punch, ← Mech.punching_iff] at this
    exact absurd (this.symm.trans h) nofun
  · exact .inr h

end Sys2Proof.Machine
end

section
/-! The takes of the printer and of the punch in order, and the punch's cycle (sections 6.2, 6.3, 7.1 to 7.6). -/

namespace Sys2Proof.Machine

open Sys2Proof

/-- Settles O16: the issue, the take and the move case by case, and the fixed point of the run. -/
theorem printerTakesEntriesInOrder : Obligations.PrinterTakesEntriesInOrder := by
  refine ⟨fun p now r => ?issue, fun m => ⟨m.printTake_printer, m.printTake_motor, m.printTake_printEntry,
    Mech.printTake_of_rests⟩, fun e => ⟨e.forPrint_false_iff, e.forPunch_false_iff⟩, fun p now m => ?move,
    fun p now m hi => Mech.settle_printStep hi⟩
  case issue =>
    obtain ⟨hstrike, hheld, hfree⟩ := Printer.issue_spec p now r
    refine ⟨hstrike, hheld, hfree, Printer.issue_held p now, fun hc => ⟨fun hl => ?_, fun hl => ?_, fun c hcol =>
      ⟨Printer.issue_space_below p now hc hcol, Printer.issue_space_end p now hc hcol⟩⟩⟩
    · rw [Printer.issue_ret_free p now hc, if_pos hl]
    · rw [Printer.issue_ret_free p now hc, hl]; rfl
  case move =>
    have hprinting : m.printing = true ↔ (m.printer.state = .idle ∨ m.printer.state = .active) ∧
        m.printer.stop = .none ∧ m.motor.state = .running := m.printing_iff
    refine ⟨fun hno => Mech.printStep_of_not_printing (Bool.eq_false_iff.mpr fun h => hno (hprinting.mp h)),
      fun htakes => ?_⟩
    have hp := hprinting.mpr htakes
    refine ⟨fun op rest hi => Mech.printStep_internal hp hi, fun hi hcol hret =>
      Mech.printStep_establish hp hi ((m.printer.needsEstablish_iff).mpr ⟨hcol, hret⟩), fun hi hknown => ?_⟩
    have he : m.printer.needsEstablish = false := Bool.eq_false_iff.mpr fun h => by
      obtain ⟨hcol, hret⟩ := (m.printer.needsEstablish_iff).mp h
      exact hknown.elim (fun h => h hcol) hret
    refine ⟨fun op hh => ⟨fun hw => Mech.printStep_wrap hp hi he hh ((Printer.needsWrap_iff ..).mpr hw), fun hw =>
      Mech.printStep_head hp hi he hh (Bool.eq_false_iff.mpr fun h => hw ((Printer.needsWrap_iff ..).mp h))⟩,
      fun hh hq => Mech.printStep_tail hp hi he hh hq, fun e hh hq hb => ?_, fun lost dest hh hq => ?_,
      fun c dest hh hq => ?_, fun c dest hh hq => Mech.printStep_char hp hi he hh hq⟩
    · rw [Mech.printStep_entry hp hi he hh hq]
      rcases hb with rfl | rfl <;> rfl
    · rw [Mech.printStep_entry hp hi he hh hq]; rfl
    · rw [Mech.printStep_entry hp hi he hh hq]; rfl

/-! ### The punch's takes -/

theorem Mech.punchStep_some {p : Params} {now : Ticks} {m : Mech} (hp : m.punching = true) {e : Entry}
    (he : m.queue.punchEntry = some e) : m.punchStep p now = some (Mech.punchTake { m with punch :=
      match e.row with
      | some row => { m.punch with cycle := some (Punch.cycleFor p now row) }
      | none => { m.punch with
          inRun := e == .runStart
          state := if m.punch.state = .tapeLowFinish ∧ e = .runEnd then .tapeOut else m.punch.state } }) := by
  simp only [Mech.punchStep, hp, he, Bool.not_true, Bool.false_eq_true, if_false] <;> rfl

/-- A punch that works stands by its cycle once the mechanism has settled (R126). -/
theorem Mech.punchWorks_kept (p : Params) (now : Ticks) :
    Mech.Kept p now (fun m => m.punch.state = .idle ∨ m.punch.state = .cycling) where
  rest _ _ _ h := h
  move m n h hn := by
    obtain ⟨b, hb⟩ := (Mech.printStep_keeps hn).2.2
    rw [hb]; exact h
  take m n h hn := by
    obtain ⟨-, -, -, ⟨_, b, hb⟩ | ⟨b, hb⟩ | ⟨b, hlow, hb⟩⟩ := Mech.punchStep_keeps hn
    · rw [hb]; exact h
    · rw [hb]; exact h
    · rcases h with h | h <;> simp [h] at hlow
  printStand m h := by rw [Mech.printStand_punch]; exact h
  ring _ h := h
  startEvent _ h := h
  restartIdle _ h := h

theorem Mech.settle_cycling {p : Params} {now : Ticks} {m : Mech} (h : m.punch.state = .idle ∨ m.punch.state = .cycling)
    (hc : (m.settle p now).punch.cycle.isSome = true) : (m.settle p now).punch.state = .cycling := by
  refine (Mech.punchWorks_kept p now).settle
    (Q := fun m => m.punch.cycle.isSome = true → m.punch.state = .cycling) (fun m hm hc => ?_) (fun _ h => h)
    (fun _ h => h) m (by rwa [Mech.printStand_punch]) hc
  have hstand : m.punchStand =
      { m with punch := { m.punch with state := if m.punch.cycle.isSome then .cycling else .idle } } := by
    rcases hm with hm | hm <;> simp [Mech.punchStand, hm]
  rw [hstand] at hc ⊢
  exact if_pos hc

/-! ### The punch's cycle -/

section
variable {s : State} {c : PunchCycle}

theorem exec_punchPulseEnd (h : s.mech.punch.cycle = some c) : exec .punchPulseEnd s = perform s c.magnets fun s =>
    (s.at c.pulseEnd).onMech fun _ _ m =>
      { m with punch := { m.punch with cycle := some { c with magnets := false } } } := by
  simp only [exec, execPunchPulseEnd, h]

theorem exec_punchDone (h : s.mech.punch.cycle = some c) (u : Ticks) :
    exec (.punchDone u) s = perform s (c.pulseEnd ≤ max s.now u) fun s =>
      s.mechEvent u fun p now m => { m with punch := m.punch.complete p now } := by
  simp only [exec, execPunchDone, h]

theorem exec_punchCycleTimeout (h : s.mech.punch.cycle = some c) :
    exec .punchCycleTimeout s = perform s true fun s' =>
      s'.mechEvent (c.issued + ms (2 * s'.loader.params.punchTimeout)) fun _ _ m =>
        { m with punch := m.punch.timedOut } := by
  simp only [exec, execPunchCycleTimeout, h]

end

theorem Punch.complete_low {h : Punch} (hs : h.state = .tapeLowFinish) (hf : h.feed = .none) (p : Params) (now : Ticks) :
    h.complete p now = { h with
      cycle := none
      state := if h.tapePresent = false ∨ h.inRun = false ∨ h.switch = .off then .tapeOut else .tapeLowFinish } := by
  by_cases hc : h.tapePresent = false ∨ h.inRun = false ∨ h.switch = .off
  · have hb : (!h.tapePresent || !h.inRun || h.switch == .off) = true := by
      rcases hc with hc | hc | hc <;> simp [hc]
    simp [Punch.complete, hs, hf, hb, hc]
  · have hb : (!h.tapePresent || !h.inRun || h.switch == .off) = false := by
      simp only [not_or, Bool.not_eq_false] at hc
      obtain ⟨ht, hr, hsw⟩ := hc
      simp [ht, hr, hsw]
    simp [Punch.complete, hs, hf, hb, if_neg hc]

/-- Settles O56: the takes, the fixed point of the run, and each end of a cycle. -/
theorem punchTakesEntriesInCycles : Obligations.PunchTakesEntriesInCycles := by
  refine ⟨fun p now m => ?takes, fun s c u hw hc => ⟨fun hm => ?released, fun hm => ?pulse, fun hlt => ?early,
    fun hle hs => ?completes, fun hle hs hf => ?low, ?timeout⟩⟩
  case takes =>
    refine ⟨fun hno => ?_, fun htakes => ⟨fun c damaged dest hq => ?_, fun lost dest hq => ?_, fun hq => ?_, fun hq => ?_⟩,
      fun hs => ⟨Mech.punchTake_punch hs, m.punchTake_printer, Mech.punchTake_punchEntry hs,
        fun hm => Mech.punchTake_of_rests hm hs⟩, Mech.settle_punchStep p now m, fun hc hs => Mech.settle_cycling hs hc⟩
    · rw [Mech.punchStep_none_iff]
      rcases hno with hno | hno
      · exact .inl (Bool.eq_false_iff.mpr fun h => hno (m.punching_iff.mp h))
      · exact .inr hno
    all_goals have hp := m.punching_iff.mpr htakes
    · rw [Mech.punchStep_some hp hq]
      simp only [Entry.row, Punch.cycleFor, ms_eq]
    · rw [Mech.punchStep_some hp hq]
      simp only [Entry.row, Punch.cycleFor, ms_eq]
    · rw [Mech.punchStep_some hp hq]
      simp [Entry.row]
    · have hne : (Entry.runEnd == Entry.runStart) = false := by decide
      rw [Mech.punchStep_some hp hq]
      simp [Entry.row, hne]
  case released => exact (exec_punchPulseEnd hc).trans (perform_no hm)
  case pulse => exact answers_of_perform (exec_punchPulseEnd hc) hw hm rfl
  case early => exact (exec_punchDone hc u).trans (perform_no (decide_eq_false (Nat.not_le.mpr hlt)))
  case completes =>
    have hans {h : Punch} (hf : s.mech.punch.complete s.loader.params (max s.now u) = h) :
        Answers (.punchDone u) s fun t => t = s.mechAfter u { s.mech with punch := h } :=
      answers_of_mechEvent (exec_punchDone hc u) hw (decide_eq_true hle) (by rw [hf])
    refine ⟨fun hstop => hans ?_, fun hstop ht => hans ?_, fun hstop ht hf => hans ?_, fun hstop ht hf => hans ?_⟩
    · simp [Punch.complete, hs, hstop, Punch.tapeUsable]
    · simp [Punch.complete, hs, hstop, ht]
    · simp [Punch.complete, hs, hstop, ht, hf, Punch.feedCycle, Punch.cycleFor, ms_eq]
    · rcases hf with hf | hf <;> simp [Punch.complete, hs, hstop, ht, hf]
  case low =>
    exact answers_of_mechEvent (exec_punchDone hc u) hw (decide_eq_true hle) (by rw [Punch.complete_low hs hf])
  case timeout =>
    refine answers_of_perform (exec_punchCycleTimeout hc) hw rfl ?_
    rw [ms_eq, ← Nat.mul_assoc]
    rfl

end Sys2Proof.Machine
end

section
/-! What settling leaves (sections 6.1, 7.1, 9.1, 9.3). -/

namespace Sys2Proof.Machine

open Sys2Proof

/-! ### A motor that does not run -/

theorem Mech.printRun_of_stopped {p : Params} {now : Ticks} {m : Mech} (h : m.printing = false) (n : Nat) :
    m.printRun p now n = m := by
  cases n with
  | zero => rfl
  | succ n => rw [Mech.printRun, Mech.printStep_of_not_printing h]

theorem Mech.punchRun_of_stopped {p : Params} {now : Ticks} {m : Mech} (h : m.punching = false) (n : Nat) :
    m.punchRun p now n = m := by
  cases n with
  | zero => rfl
  | succ n => rw [Mech.punchRun, (Mech.punchStep_none_iff p now m).mpr (.inl h)]

/-- With the motor not RUNNING the readers take nothing (R105, R127). -/
theorem Mech.pump_of_stopped {m : Mech} (h : m.motor.state ≠ .running) (p : Params) (now : Ticks) :
    m.pump p now = m := by
  have hprint : m.printing = false := Bool.eq_false_iff.mpr fun hp => h ((m.printing_iff.mp hp).2.2)
  have hpunch : m.punching = false := Bool.eq_false_iff.mpr fun hp => h ((m.punching_iff.mp hp).2.1)
  rw [Mech.pump, Mech.printRun_of_stopped hprint, Mech.punchRun_of_stopped hpunch]

/-! ### What settling leaves as it was -/

theorem Mech.feed_synced_kept (p : Params) (now : Ticks) (f : FeedMode) (b : Bool) :
    Mech.Kept p now (fun m => m.punch.feed = f ∧ m.printer.synced = b) where
  rest _ _ _ h := h
  move m n h hn := by
    obtain ⟨x, hx⟩ := (Mech.printStep_keeps hn).2.2
    have hs : n.printer.synced = m.printer.synced := by
      obtain ⟨-, ⟨op, rest, r, -, hr, rfl⟩ | ⟨-, -, rfl⟩ | ⟨op, -, -, -, -, rfl⟩ |
        ⟨op, r, -, -, -, -, hr, rfl⟩ | ⟨e, r, -, -, -, -, hr, rfl⟩ | ⟨e, -, -, -, -, -, rfl⟩⟩ :=
        Mech.printStep_cases hn
      · exact (Printer.issue_frame hr).2.2.2.1
      · rfl
      · rfl
      · rw [Mech.printTake_printer]; exact (Printer.issue_frame hr).2.2.2.1
      · rw [Mech.printTake_printer]; obtain ⟨held, case, bell, rfl⟩ := Printer.instant_eq hr; rfl
      · rfl
    rw [hx, hs]
    exact h
  take m n h hn := by
    obtain ⟨-, hprinter, -, ⟨_, _, hp⟩ | ⟨_, hp⟩ | ⟨_, -, hp⟩⟩ := Mech.punchStep_keeps hn
    all_goals
      rw [hp, hprinter]
      exact h
  printStand m h := by
    obtain ⟨st, x, hp⟩ := m.printStand_printer
    rw [Mech.printStand_punch, hp]
    exact h
  ring _ h := h
  startEvent _ h := h
  restartIdle _ h := h

theorem Mech.settle_feed_synced (p : Params) (now : Ticks) (m : Mech) :
    (m.settle p now).punch.feed = m.punch.feed ∧ (m.settle p now).printer.synced = m.printer.synced := by
  refine (Mech.feed_synced_kept p now m.punch.feed m.printer.synced).settle
    (Q := fun n => n.punch.feed = m.punch.feed ∧ n.printer.synced = m.printer.synced) (fun n h => ?_) (fun _ h => h)
    (fun _ h => h) m ((Mech.feed_synced_kept p now _ _).printStand m ⟨rfl, rfl⟩)
  obtain ⟨st, hp⟩ := n.punchStand_punch
  rw [Mech.punchStand_printer, hp]
  exact h

/-- A stop that still stands waits for what is in motion (R105, R121). -/
theorem Mech.printStand_stop {m : Mech} (h : m.printStand.printer.stop ≠ .none) : m.printStand.printer.busy = true := by
  unfold Mech.printStand at h ⊢
  dsimp only at h ⊢
  split at h
  · rename_i hn
    split at h <;> simp [hn] at h
  · rename_i hm
    by_cases hb : m.printer.busy = true
    · simp [hb]
    · simp [hb] at h
  · rename_i hm
    by_cases hb : m.printer.busy = true
    · simp [hb]
    · simp [hb] at h

/-! ### Motor control -/

theorem Mech.demand_congr {m m' : Mech} (hq : m'.queue = m.queue) (hr : m'.printer = m.printer)
    (hu : m'.punch = m.punch) : m'.demand = m.demand := by
  simp only [Mech.demand, hq, hr, hu]

theorem Mech.quiet_congr {m m' : Mech} (hq : m'.queue = m.queue) (hr : m'.printer = m.printer)
    (hu : m'.punch = m.punch) : m'.quiet = m.quiet := by
  simp only [Mech.quiet, Mech.demand_congr hq hr hu, hq, hr, hu]

/-- What motor control makes of the mechanism, by the demand and the quiet that it leaves (R162, R165). -/
theorem Mech.settle_motor_eq (p : Params) (now : Ticks) (m : Mech) :
    (m.settle p now).motor =
      let d := if (m.settle p now).demand then m.motor.startEvent p now else m.motor
      { d with idle :=
          if d.state = .running ∧ (m.settle p now).quiet = true then
            some (d.idle.getD (now + p.idleTime d.mode))
          else none } := by
  have hmotor : (m.stood p now).motor = m.motor := by
    simp [Mech.stood, (Mech.pump_frame p now m.printStand).1]
  have hdemand : (m.settle p now).demand = (m.stood p now).demand :=
    Mech.demand_congr (by simp [Mech.settle_eq]) (by simp [Mech.settle_eq]) (by simp [Mech.settle_eq])
  have hquiet : (m.settle p now).quiet = ((m.stood p now).lookAtDemand p now).quiet :=
    Mech.quiet_congr (by simp [Mech.settle_eq]) (by simp [Mech.settle_eq]) (by simp [Mech.settle_eq])
  have hlook : ((m.stood p now).lookAtDemand p now).motor =
      if (m.settle p now).demand then m.motor.startEvent p now else m.motor := by
    rw [hdemand, ← hmotor, Mech.lookAtDemand]
    split <;> rfl
  dsimp only
  rw [← hlook, hquiet, Mech.settle_eq, Mech.watchIdle]
  cases hi : ((m.stood p now).lookAtDemand p now).motor.idle <;> simp

theorem Mech.demand_iff (t : Mech) : t.demand = true ↔
    (t.queue.printEntry.isSome = true ∧ (t.printer.state = .off ∨ t.printer.state = .idle ∨
      t.printer.state = .active ∧ t.printer.stop = .none)) ∨
    (t.queue.punchEntry.isSome = true ∧ t.punch.switch ≠ .off ∧ (t.punch.state = .off ∨
      t.punch.state = .idle ∨ t.punch.state = .cycling ∨ t.punch.state = .tapeLowFinish)) ∨
    t.punch.feed = .waiting ∨ t.punch.feed = .continuous := by
  have hprinter : t.printer.canAct = true ↔
      t.printer.state = .off ∨ t.printer.state = .idle ∨ t.printer.state = .active ∧ t.printer.stop = .none := by
    unfold Printer.canAct
    cases t.printer.state <;> simp
  have hpunch : t.punch.canAct = true ↔ t.punch.switch ≠ .off ∧ (t.punch.state = .off ∨
      t.punch.state = .idle ∨ t.punch.state = .cycling ∨ t.punch.state = .tapeLowFinish) := by
    unfold Punch.canAct
    cases t.punch.state <;> simp
  simp only [Mech.demand, Bool.or_eq_true, Bool.and_eq_true, beq_iff_eq, or_assoc]
  rw [hprinter, hpunch]
  exact or_congr and_comm (or_congr and_comm .rfl)

theorem Mech.quiet_iff (t : Mech) : t.quiet = true ↔
    ¬ t.demand = true ∧
      (t.printer.state = .idle ∨ t.printer.state = .paperOut ∨ t.printer.state = .fault) ∧
      (t.punch.state = .idle ∨ t.punch.state = .tapeOut ∨ t.punch.state = .fault ∨
        t.punch.switch = .off ∧ t.punch.cycle = none ∨
        t.punch.state = .tapeLowFinish ∧ t.punch.cycle = none ∧ t.queue.punchEntry = none) ∧
      t.queue.holder ≠ .receive := by
  simp only [Mech.quiet, Bool.and_eq_true, Bool.or_eq_true, beq_iff_eq, bne_iff_ne, Option.isNone_iff_eq_none,
    Bool.not_eq_true', Bool.not_eq_true]
  tauto

theorem Params.idleTime_eq (p : Params) (mode : Mode) : p.idleTime mode =
    match mode with
    | .attended => 120000 * p.attendedIdle
    | .unattended => 120000 * p.unattendedIdle := by
  cases mode <;> simp only [Params.idleTime, ms_eq, ← Nat.mul_assoc]

theorem Mech.settle_of_stopped {p : Params} {now : Ticks} {m : Mech} (h : m.motor.state ≠ .running) :
    (m.settle p now).queue = m.queue ∧ (m.settle p now).punch.cycle = m.punch.cycle ∧
      (m.settle p now).printer.column = m.printer.column ∧ (m.settle p now).printer.hammer = m.printer.hammer ∧
      (m.settle p now).printer.carriage = m.printer.carriage ∧
      (m.settle p now).printer.platen = m.printer.platen := by
  have hpump : m.printStand.pump p now = m.printStand :=
    Mech.pump_of_stopped (by rw [Mech.printStand_motor]; exact h) p now
  obtain ⟨st, x, hfirst⟩ := m.printStand_printer
  obtain ⟨st', x', hsecond⟩ := m.printStand.printStand_printer
  obtain ⟨sp, hpunch⟩ := m.printStand.printStand.punchStand_punch
  refine ⟨by rw [Mech.settle_queue, hpump, Mech.printStand_queue], ?_, ?_⟩
  · rw [Mech.settle_punch, hpump, hpunch, Mech.printStand_punch, Mech.printStand_punch]
  · rw [Mech.settle_printer, hpump, hsecond, hfirst]
    exact ⟨rfl, rfl, rfl, rfl⟩

/-- Settles O60: the readers, the stop, and motor control by the demand and the quiet it finds. -/
theorem mechanismSettles : Obligations.MechanismSettles := by
  intro p now m
  dsimp only
  have hmotor := m.settle_motor_eq p now
  have hd := (m.settle p now).demand_iff
  have hq := (m.settle p now).quiet_iff
  rw [hd] at hq
  refine ⟨Mech.settle_of_stopped, fun hstop => ?stop, fun hoff hdem => ?starts, fun hoff hdem => ?stays,
    fun hon => ?state, fun hrun hquiet => ?timer, fun hno => ?noTimer, ?inputs⟩
  case stop =>
    rw [Mech.settle_printer] at hstop ⊢
    exact Mech.printStand_stop hstop
  case starts =>
    rw [hmotor, if_pos (hd.mpr hdem), Motor.startEvent_of_off hoff]
    exact ⟨rfl, rfl⟩
  case stays =>
    rw [hmotor, if_neg fun h => hdem (hd.mp h)]
    exact hoff
  case state =>
    rw [hmotor, Motor.startEvent_of_not_off hon]
    split <;> rfl
  case timer =>
    have hnoff : m.motor.state ≠ .off := by rw [hrun]; nofun
    rw [hmotor, Motor.startEvent_of_not_off hnoff, ite_self]
    dsimp only
    rw [if_pos ⟨hrun, hq.mpr hquiet⟩, Params.idleTime_eq] <;> rfl
  case noTimer =>
    rw [hmotor]
    refine if_neg fun ⟨hrun, hquiet⟩ => hno.elim (fun h => h ?_) fun h => h (hq.mp hquiet)
    rcases m.motor.startEvent_cases p now with he | ⟨-, he⟩
    · rwa [he, ite_self] at hrun
    · split at hrun
      · rw [he] at hrun
        exact absurd hrun nofun
      · exact hrun
  case inputs =>
    have hinputs := m.settle_inputs p now
    obtain ⟨hfeed, hsynced⟩ := m.settle_feed_synced p now
    have hport := (m.settle_frame p now).1
    simp only [Mech.inputs, Punch.flags, Prod.mk.injEq] at hinputs
    simp only [CopyQueue.port, Prod.mk.injEq] at hport
    obtain ⟨hmode, hspeed, hpaper, hwheel, hswitch, hpresent, hlow⟩ := hinputs
    obtain ⟨hholder, hlocal, -, hreq, -⟩ := hport
    exact ⟨hmode, hspeed, hswitch, hlow, hpresent, hfeed, hpaper, hwheel, hsynced, hholder, hlocal, hreq⟩

end Sys2Proof.Machine
end

section
/-! The operator at the punch (sections 5.6, 7.2, 7.5, 7.6). -/

namespace Sys2Proof.Machine

open Sys2Proof

theorem exec_tapeFeedDown (u : Ticks) (s : State) : exec (.tapeFeedDown u) s =
    perform s (!s.keyboard.isDown .tapeFeed) fun s => (s.at u).keyDownEvent .tapeFeed := rfl

theorem exec_tapeFeedUp (u : Ticks) (s : State) : exec (.tapeFeedUp u) s =
    perform s (s.keyboard.isDown .tapeFeed) fun s => (s.at u).keyUpEvent .tapeFeed := rfl

theorem exec_punchSwitchEvent (a b : Bool) (u : Ticks) (s : State) : exec (.punchSwitchEvent a b u) s =
    perform s (switchPosition a b != s.mech.punch.switch) fun s =>
      s.mechEvent u fun _ _ m => Mech.rest { m with punch := m.punch.setSwitch (switchPosition a b) } := rfl

/-! ### TAPE FEED -/

theorem Punch.feedDown_eq (p : Params) (now : Ticks) (h : Punch) : h.feedDown p now =
    if h.switch ≠ .off ∧ h.feed = .none ∧ h.inRun = false ∧ h.state = .idle then
      { h with
        feed := .continuous
        state := .cycling
        cycle := some { row := 0, issued := now, pulseEnd := now + 120 * p.punchPulse, magnets := true } }
    else if h.switch ≠ .off ∧ h.feed = .none ∧ h.inRun = false ∧ h.state = .off then { h with feed := .waiting }
    else h := by
  by_cases hb : h.switch = .off ∨ h.feed ≠ .none ∨ h.inRun = true
  · have hno (st : PunchState) : ¬ (h.switch ≠ .off ∧ h.feed = .none ∧ h.inRun = false ∧ h.state = st) := by
      rintro ⟨hs, hf, hr, -⟩
      rcases hb with hb | hb | hb
      · exact hs hb
      · exact hb hf
      · exact absurd (hb.symm.trans hr) nofun
    rw [Punch.feedDown, if_pos hb, if_neg (hno _), if_neg (hno _)]
  · obtain ⟨hs, hf, hr⟩ : h.switch ≠ .off ∧ h.feed = .none ∧ h.inRun = false := by
      simpa only [not_or, not_not, Bool.not_eq_true] using hb
    rw [Punch.feedDown, if_neg hb]
    cases hst : h.state <;> simp [hs, hf, hr, Punch.feedCycle, Punch.cycleFor, ms_eq]

theorem State.tapeFeedDown_of_attended {s : State} (h : s.mech.motor.mode = .attended) :
    s.tapeFeedDown = { s with mech := { s.mech with punch := s.mech.punch.feedDown s.loader.params s.now } } := if_pos h

theorem State.tapeFeedDown_of_unattended {s : State} (h : s.mech.motor.mode = .unattended) :
    s.tapeFeedDown = s := if_neg (by simp [h])

/-! ### The switch -/

theorem Punch.setSwitch_of_on {pos : PunchSwitch} (h : pos ≠ .off) (u : Punch) :
    u.setSwitch pos = { u with switch := pos } := by
  simp [Punch.setSwitch, h]

theorem Punch.setSwitch_off (u : Punch) : u.setSwitch .off = { u with switch := .off, feed := u.feed.stopped } := rfl

/-- The standing of the punch at the end of an event (R126, R133, R137). -/
theorem Mech.punchStand_state (m : Mech) : m.punchStand.punch = { m.punch with state :=
    if m.punch.state = .idle ∨ m.punch.state = .cycling then
      if m.punch.cycle.isSome then .cycling else .idle
    else if m.punch.state = .tapeLowFinish ∧ m.punch.cycle = none ∧ (m.punch.inRun = false ∨ m.punch.switch = .off) then
      .tapeOut
    else m.punch.state } := by
  obtain ⟨queue, printer, ⟨state, cycle, stop, inRun, tapeLow, tapePresent, feed, switch⟩, motor⟩ := m
  cases state with
  | tapeLowFinish =>
    cases cycle with
    | some c => simp [Mech.punchStand]
    | none => by_cases hc : inRun = false ∨ switch = .off <;> simp [Mech.punchStand, hc]
  | off | idle | cycling | tapeOut | fault => simp [Mech.punchStand]

theorem Mech.settle_punch_of_stopped {m : Mech} (h : m.motor.state ≠ .running) (p : Params) (now : Ticks) :
    (m.settle p now).punch = m.punchStand.punch := by
  have hpump : m.printStand.pump p now = m.printStand :=
    Mech.pump_of_stopped (by rw [Mech.printStand_motor]; exact h) p now
  rw [Mech.settle_punch, hpump, Mech.punchStand_state, Mech.punchStand_state, Mech.printStand_punch,
    Mech.printStand_punch]

/-- The switch at OFF in a queue whose pointers rest: the punch pointer goes along with the print pointer (R100). -/
theorem Mech.rest_at_off {m : Mech} (hm : m.pointersRest) {u : Punch} (hu : u.switch = .off)
    (hr : u.inRun = m.punch.inRun) :
    Mech.rest { m with punch := u } = { m with
      queue := m.queue.movedTo m.queue.printAt (max m.queue.punchAt m.queue.printAt)
      punch := { u with
        inRun := inRunPast m.punch.inRun
          ((m.queue.entries.drop m.queue.punchAt).take (m.queue.printAt - m.queue.punchAt)) } } := by
  obtain ⟨-, -, -, hprint, -, -, -⟩ := hm
  have hstay := passOver_of_rests hprint
  rw [Mech.rest_of_off (m := { m with punch := u }) hu]
  dsimp only
  rw [hstay, hr]

theorem State.mechAfter_eq (s : State) (u : Ticks) (m : Mech) : s.mechAfter u m =
    { s with now := max s.now u, mech := m.settle s.loader.params (max s.now u) } := rfl

/-- What the switch leaves at OFF, with the motor not RUNNING (R100, R101, R128, R137). -/
theorem State.switched_off {s : State} (hsafe : s.mech.pointersRest) (hrun : s.mech.motor.state ≠ .running) {m : Mech}
    {p : Params} {now : Ticks} (hm : m = Mech.rest { s.mech with punch := s.mech.punch.setSwitch .off }) :
    (m.settle p now).punch.switch = .off ∧
    (m.settle p now).punch.feed = s.mech.punch.feed.stopped ∧
    (m.settle p now).punch.inRun = inRunPast s.mech.punch.inRun
      ((s.mech.queue.entries.drop s.mech.queue.punchAt).take (s.mech.queue.printAt - s.mech.queue.punchAt)) ∧
    (s.mech.punch.state = .tapeLowFinish →
      (m.settle p now).punch.state = if s.mech.punch.cycle = none then .tapeOut else .tapeLowFinish) ∧
    (m.settle p now).queue.entries = s.mech.queue.entries.drop s.mech.queue.printAt ∧
    (m.settle p now).queue.printAt = 0 ∧
    (m.settle p now).queue.punchAt = s.mech.queue.punchAt - s.mech.queue.printAt := by
  replace hm := hm.trans (Mech.rest_at_off (u := s.mech.punch.setSwitch .off) hsafe rfl rfl)
  have hstopped : m.motor.state ≠ .running := by rw [hm]; exact hrun
  have hmin : min s.mech.queue.printAt (max s.mech.queue.punchAt s.mech.queue.printAt) = s.mech.queue.printAt := by omega
  have hpunchAt : max s.mech.queue.punchAt s.mech.queue.printAt - s.mech.queue.printAt =
      s.mech.queue.punchAt - s.mech.queue.printAt := by omega
  have hqueue := (Mech.settle_of_stopped (p := p) (now := now) hstopped).1
  rw [Mech.settle_punch_of_stopped hstopped, Mech.punchStand_state, hqueue, hm]
  refine ⟨rfl, rfl, rfl, fun hs => ?_, ?_, ?_, ?_⟩
  · cases hc : s.mech.punch.cycle <;> simp [Punch.setSwitch, hs, hc]
  · simp only [CopyQueue.movedTo, hmin]
  · simp only [CopyQueue.movedTo, hmin, Nat.sub_self]
  · simp only [CopyQueue.movedTo, hmin, hpunchAt]

/-- Settles O58: TAPE FEED by mode and state, the positions, what passes at OFF, and the switch event. -/
theorem punchIsOperated : Obligations.PunchIsOperated := by
  refine ⟨fun s u hw => ⟨fun hup => ⟨fun hm => ?unattended, fun hm => ?attended⟩, fun hdown => ?up⟩,
    ⟨rfl, rfl, rfl, rfl⟩, fun m => ⟨fun h => ⟨Mech.rest_of_off h, Mech.printTake_of_off h⟩, Mech.rest_of_on⟩,
    fun s a b u hw => ⟨fun heq => ?same, fun hne hon => ?on, fun hne hoff hsafe hrun => ?off⟩⟩
  case unattended =>
    refine answers_of_perform (exec_tapeFeedDown u s) hw (by simp [hup]) (congrArg State.settle ?_)
    rw [State.keyGoesDown_of_unattended (s := s.at u) hm]
    exact State.tapeFeedDown_of_unattended hm
  case attended =>
    refine answers_of_perform (exec_tapeFeedDown u s) hw (by simp [hup]) (congrArg State.settle ?_)
    have hmode := (Motor.keyEvent_mode (s.at u).loader.params (s.at u).now (s.at u).mech.motor).trans hm
    rw [State.keyGoesDown_of_attended (s := s.at u) hm (by decide)]
    refine (State.tapeFeedDown_of_attended (s := { s.at u with keyboard := _, mech := { s.mech with motor := _ } }) hmode).trans ?_
    dsimp only
    rw [Punch.feedDown_eq]
    rfl
  case up =>
    refine answers_of_perform (exec_tapeFeedUp u s) hw hdown rfl
  case same => exact (exec_punchSwitchEvent a b u s).trans (perform_no (by simp [heq]))
  case on =>
    refine answers_of_mechEvent (exec_punchSwitchEvent a b u s) hw (by simpa using hne) ?_
    rw [Punch.setSwitch_of_on hon]
  case off =>
    refine answers_of_perform (exec_punchSwitchEvent a b u s) hw (by simpa using hne) ?_
    rw [hoff]
    exact ⟨rfl, State.switched_off hsafe.2.1 hrun rfl⟩

end Sys2Proof.Machine
end

section
/-! The keyboard (sections 8.1, 9.1). -/

namespace Sys2Proof.Machine

open Sys2Proof

/-! ### The standings -/

/-- The key of a place of the matrix (section 8.1). -/
def keyAt (n : Fin 39) : Key :=
  if h : n.val < 24 then .data ⟨n.val, h⟩
  else [Key.space, .ret, .newline, .call, .endKey, .cancel, .enq, .status, .hereIs, .bell, .log, .shift, .brk, .clear,
    .tapeFeed].getD (n.val - 24) .shift

theorem keyAt_keyIndex (k : Key) : keyAt (keyIndex k) = k := by
  cases k with
  | data c => simp [keyAt, keyIndex]
  | _ => rfl

theorem keyIndex_inj {k k' : Key} : keyIndex k = keyIndex k' ↔ k = k' :=
  ⟨fun h => by rw [← keyAt_keyIndex k, h, keyAt_keyIndex], fun h => h ▸ rfl⟩

/-- A standing is set for its key alone (R139). -/
theorem Keyboard.isDown_setKey (b : Keyboard) (k k' : Key) (down : Bool) :
    (b.setKey k down).isDown k' = if k' = k then down else b.isDown k' := by
  have hne : (keyIndex k).val = (keyIndex k').val ↔ k' = k := by
    rw [← Fin.ext_iff, keyIndex_inj, eq_comm]
  simp only [Keyboard.isDown, Keyboard.setKey, Fin.getElem_fin, Vector.getElem_set, hne]

/-! ### Down and up -/

theorem exec_keyDown (k : Key) (u : Ticks) (s : State) : exec (.keyDown k u) s =
    perform s (!s.keyboard.isDown k) fun s => (s.at u).keyDownEvent k := rfl

theorem exec_keyUp (k : Key) (u : Ticks) (s : State) : exec (.keyUp k u) s =
    perform s (s.keyboard.isDown k) fun s => (s.at u).keyUpEvent k := rfl

theorem State.routeDown_of_queued (s : State) {k : Key} (h : isQueued k = true) : s.routeDown k = s.queueKey k := by
  cases k with
  | shift | brk | clear | tapeFeed => exact absurd h nofun
  | _ => rfl

theorem State.routeUp_of_other (s : State) {k : Key} (hb : k ≠ .brk) (ht : k ≠ .tapeFeed) : s.routeUp k = s := by
  cases k with
  | brk => exact absurd rfl hb
  | tapeFeed => exact absurd rfl ht
  | _ => rfl

theorem isQueued_ne_clear {k : Key} (h : isQueued k = true) : k ≠ .clear := fun hk => by simp [hk, isQueued] at h

theorem State.queueKey_of_unattended {s : State} (h : s.mech.motor.mode = .unattended) (k : Key) : s.queueKey k = s :=
  if_neg (by simp [h])

theorem State.queueKey_of_room {s : State} (h : s.mech.motor.mode = .attended) (hroom : s.keyboard.queue.length < 6)
    (k : Key) : s.queueKey k = { s with keyboard := { s.keyboard with
      queue := s.keyboard.queue ++ [{ key := k, case := keyCase (s.keyboard.isDown .shift) k }] } } := by
  rw [State.queueKey, if_pos h]
  exact if_pos hroom

theorem State.queueKey_of_full {s : State} (h : s.mech.motor.mode = .attended) (hfull : 6 ≤ s.keyboard.queue.length)
    (k : Key) : s.queueKey k = s.ring := by
  rw [State.queueKey, if_pos h]
  exact if_neg (Nat.not_lt.mpr hfull)

theorem State.ring_eq (s : State) : s.ring =
    { s with mech := { s.mech with printer := { s.mech.printer with bell := some (s.now + 12000) } } } := rfl

/-- The standing of SHIFT at another key's down event (R140). -/
theorem Keyboard.shift_of_queued (b : Keyboard) {k : Key} (h : isQueued k = true) :
    (b.setKey k true).isDown .shift = b.isDown .shift := by
  rw [Keyboard.isDown_setKey, if_neg fun hk => by simp [← hk, isQueued] at h]

/-- Settles O45: the standings, the queue by its mode and room, and the keys that act themselves. -/
theorem keysComeDownAndUp : Obligations.KeysComeDownAndUp := by
  refine ⟨Keyboard.isDown_setKey, fun s k u hw => ⟨fun hdown => ?held, fun hup => ⟨fun hq hm => ?unattended,
    fun hq hm hroom => ?queued, fun hq hm hfull => ?lost, fun hk => ?shift⟩, rfl, rfl, rfl, rfl, rfl,
    fun hup => ?upAlready, fun hdown hb ht => ?up⟩⟩
  case held => exact (exec_keyDown k u s).trans (perform_no (by simp [hdown]))
  case upAlready => exact (exec_keyUp k u s).trans (perform_no hup)
  case up =>
    refine answers_of_perform (exec_keyUp k u s) hw hdown (congrArg State.settle ?_)
    exact State.routeUp_of_other _ hb ht
  all_goals
    refine answers_of_perform (exec_keyDown k u s) hw (by simp [hup]) (congrArg State.settle ?_)
  case unattended =>
    rw [State.keyGoesDown_of_unattended (s := s.at u) hm, State.routeDown_of_queued _ hq]
    exact State.queueKey_of_unattended (by exact hm) k
  case shift =>
    subst hk
    by_cases hm : s.mech.motor.mode = .attended
    · rw [if_pos hm]
      exact State.keyGoesDown_of_attended (s := s.at u) hm (by decide)
    · rw [if_neg hm]
      exact if_neg fun h => hm h.1
  all_goals
    have hmode := (Motor.keyEvent_mode (s.at u).loader.params (s.at u).now (s.at u).mech.motor).trans hm
    rw [State.keyGoesDown_of_attended (s := s.at u) hm (isQueued_ne_clear hq), State.routeDown_of_queued _ hq]
  case queued =>
    refine (State.queueKey_of_room (by exact hmode) (by exact hroom) k).trans ?_
    have hshift := Keyboard.shift_of_queued s.keyboard hq
    simp only [State.at_keyboard, hshift]
    rfl
  case lost =>
    exact State.queueKey_of_full (by exact hmode) (by exact hfull) k

end Sys2Proof.Machine
end

section
/-! The composer's record and the local run that copies it; CLEAR and the mode switch (sections 8.4, 8.5, 9.4, 9.5). -/

namespace Sys2Proof.Machine

open Sys2Proof

/-! ### The local run's close -/

/-- The mechanism when the local run is closed (R92, R155, R156). -/
def Mech.localClosed (p : Params) (now : Ticks) (m : Mech) : Mech :=
  match m.queue.localRun with
  | .none => m
  | .opened =>
    let w := m.write p now .runEnd
    { w with queue := { w.queue.releasePort with localRun := .none } }
  | .suspended => { m with queue := { m.queue with localRun := .none, copierWaits := false } }

theorem State.closeLocalRun_eq (s : State) :
    s.closeLocalRun = { s with mech := s.mech.localClosed s.loader.params s.now } := by
  unfold State.closeLocalRun Mech.localClosed
  cases s.mech.queue.localRun <;> rfl

/-! ### The record being composed -/

theorem State.discardComposing_of_none {s : State}
    (h : ∀ r x, s.newest = some r → r.body = .message x → x.state ≠ .composing) : s.discardComposing = s := by
  unfold State.discardComposing
  split
  · rfl
  · rename_i r hr
    split
    · rfl
    · rename_i x hx
      exact if_neg (h r x hr hx)

/-- The state with its newest record, its text and its log record discarded (R152, R156). -/
def State.discarded (s : State) (r : OutRecord) (x : Message) : State := { s with
  table := s.table.dropLast
  store := { s.store with chars := s.store.chars.take (s.store.chars.length - r.length) }
  log := s.log.finishDiscard x.logNumber }

theorem State.discardComposing_of_composing {s : State} {r : OutRecord} {x : Message} (hr : s.newest = some r)
    (hx : r.body = .message x) (hc : x.state = .composing) : s.discardComposing =
      if s.table.dropLast.all OutRecord.copied = true then
        { (s.discarded r x).closeLocalRun with copier := Copier.reset }
      else s.discarded r x := by
  simp only [State.discardComposing, hr, hx, if_pos hc]
  rfl

theorem State.closeOpenText_of_not {s : State} (h : s.hasOpenText = false) : s.closeOpenText = s :=
  if_neg (by simp [h])

/-- What is discarded leaves, field by field, what it does not name. -/
theorem State.closeOpenText_frame (s : State) :
    ∃ m tb st k, s.closeOpenText = { s with mech := m, table := tb, store := st, copier := k } := by
  unfold State.closeOpenText
  split
  · obtain ⟨m, tb, st, k, h⟩ := State.copierLooks_frame
      { s with table := onLast (fun r => { r with body := .text false }) s.table }
    rw [h]
    exact ⟨m, tb, st, k, rfl⟩
  · exact ⟨s.mech, s.table, s.store, s.copier, rfl⟩

/-! ### CLEAR -/

theorem exec_clear (u : Ticks) (s : State) : exec (.clear u) s =
    perform s (!s.keyboard.isDown .clear) fun s => (s.at u).keyDownEvent .clear := rfl

theorem Printer.clearFault_eq (running : Bool) (r : Printer) : r.clearFault running =
    if r.state = .fault then
      { r with
        mismatches := 0, synced := false
        state := if r.paper = false then .paperOut else if running = true then .idle else .off }
    else r := by
  cases hp : r.paper <;> simp [Printer.clearFault, hp]

theorem Punch.clearFault_eq (running : Bool) (h : Punch) : h.clearFault running =
    if h.state = .fault then
      { h with state := if h.tapePresent = false ∨ h.tapeLow = true then .tapeOut else if running = true then .idle else .off }
    else h := by
  cases ht : h.tapePresent <;> cases hl : h.tapeLow <;> simp [Punch.clearFault, Punch.tapeUsable, ht, hl]

/-- CLEAR at the mechanism: each part that is in FAULT leaves it (R123, R131, R166). -/
theorem Mech.cleared_eq (m : Mech) : m.cleared = { m with
    motor :=
      if m.motor.state = .fault then { m.motor with state := .off, runUp := none, idle := none } else m.motor
    printer :=
      if m.printer.state = .fault then
        { m.printer with
          mismatches := 0, synced := false
          state := if m.printer.paper = false then .paperOut else if m.motor.state = .running then .idle else .off }
      else m.printer
    punch :=
      if m.punch.state = .fault then
        { m.punch with
          state := if m.punch.tapePresent = false ∨ m.punch.tapeLow = true then .tapeOut
            else if m.motor.state = .running then .idle else .off }
      else m.punch } := by
  simp only [Mech.cleared, Printer.clearFault_eq, Punch.clearFault_eq, beq_iff_eq]
  rfl

/-- CLEAR behind the discard: keyboard, composer, count and faults (R23, R157). -/
def State.cleared (s d : State) : State := { d with
  keyboard := { s.keyboard.setKey .clear true with queue := [] }
  composer := {
    state := .composeLocal
    sendCase := if s.composer.state = .composeLocal then s.composer.sendCase else none
    group := none, tens := none }
  listener := { s.listener with errors := 0, degraded := false }
  mech := d.mech.cleared }

theorem State.discardComposing_frame (s : State) : ∃ m tb st k l, s.discardComposing =
    { s with mech := m, table := tb, store := st, copier := k, log := l } := by
  by_cases h : ∃ r x, s.newest = some r ∧ r.body = .message x ∧ x.state = .composing
  · obtain ⟨r, x, hr, hx, hc⟩ := h
    rw [State.discardComposing_of_composing hr hx hc]
    split
    · rw [State.closeLocalRun_eq]
      exact ⟨_, _, _, _, _, rfl⟩
    · exact ⟨_, _, _, _, _, rfl⟩
  · simp only [not_exists, not_and] at h
    rw [State.discardComposing_of_none h]
    exact ⟨s.mech, s.table, s.store, s.copier, s.log, rfl⟩

/-- The discard does not look at the keyboard. -/
theorem State.discardComposing_withKeyboard (s : State) (b : Keyboard) :
    ({ s with keyboard := b } : State).discardComposing = { s.discardComposing with keyboard := b } := by
  by_cases h : ∃ r x, s.newest = some r ∧ r.body = .message x ∧ x.state = .composing
  · obtain ⟨r, x, hr, hx, hc⟩ := h
    rw [State.discardComposing_of_composing hr hx hc,
      State.discardComposing_of_composing (s := { s with keyboard := b }) hr hx hc]
    by_cases hall : s.table.dropLast.all OutRecord.copied = true
    · rw [if_pos hall, if_pos (by exact hall), State.closeLocalRun_eq, State.closeLocalRun_eq]
      rfl
    · rw [if_neg hall, if_neg (by exact hall)]
      rfl
  · simp only [not_exists, not_and] at h
    rw [State.discardComposing_of_none h, State.discardComposing_of_none (s := { s with keyboard := b }) h]

theorem State.clear_eq (s : State) : (s.keyGoesDown .clear).routeDown .clear = s.cleared s.discardComposing := by
  have hdown : s.keyGoesDown .clear = { s with keyboard := s.keyboard.setKey .clear true } :=
    if_neg fun h => h.2 rfl
  obtain ⟨m, tb, st, k, l, hframe⟩ := s.discardComposing_frame
  rw [hdown]
  change State.clearDown _ = _
  rw [State.clearDown, State.discardComposing_withKeyboard, hframe]
  rfl

/-! ### The mode switch -/

theorem exec_modeEvent (mode : Mode) (u : Ticks) (s : State) : exec (.modeEvent mode u) s =
    perform s (mode != s.mech.motor.mode) fun s => ((s.at u).modeChanged mode).settle := rfl

/-- The motor with the mode turned (R160, R165). -/
def State.turned (s : State) (mode : Mode) : State := { s with
  mech := { s.mech with
    motor := { s.mech.motor with
      mode := mode, idle := s.mech.motor.idle.map fun _ => s.now + s.loader.params.idleTime mode } } }

/-- The composer and the key queue are reset (R160). -/
def State.unattendedReset (s d : State) : State := { d with
  keyboard := { s.keyboard with queue := [] }
  composer := {
    state := .composeLocal
    sendCase := if s.composer.state = .composeLocal then s.composer.sendCase else none
    group := none, tens := none } }

theorem State.modeChanged_attended (s : State) : s.modeChanged .attended = s.turned .attended := by
  have h := ({ s.mech.motor with mode := .attended } : Motor).restartIdle_eq s.loader.params s.now
  simp only [State.modeChanged, State.onMech, h]
  rfl

theorem State.modeChanged_unattended (s : State) : s.modeChanged .unattended =
    s.unattendedReset (s.turned .unattended).discardComposing.closeOpenText := by
  have h := ({ s.mech.motor with mode := .unattended } : Motor).restartIdle_eq s.loader.params s.now
  have hturned : (s.onMech fun p now m =>
      { m with motor := ({ m.motor with mode := .unattended } : Motor).restartIdle p now }) = s.turned .unattended := by
    simp only [State.onMech, h]
    rfl
  obtain ⟨m, tb, st, k, l, hdiscard⟩ := (s.turned .unattended).discardComposing_frame
  obtain ⟨m', tb', st', k', hclose⟩ := (s.turned .unattended).discardComposing.closeOpenText_frame
  rw [hdiscard] at hclose
  simp only [State.modeChanged, hturned, hdiscard, hclose, State.unattendedReset]
  rfl

/-- Settles O49: CLEAR and the mode switch by whether a record is being composed. -/
theorem clearAndModeSwitchPutInOrder : Obligations.ClearAndModeSwitchPutInOrder := by
  refine ⟨fun s u hw => ⟨fun hdown => ?held, fun hup hnone => ?clear, fun hup r x hr hx hc => ?discards⟩,
    fun s mode u hw => ⟨fun heq => ?same, fun hne hm => ?attended, fun hne hm r x hr hx hc hno => ?composed,
      fun hne hm hnone => ?unattended⟩⟩
  case held => exact (exec_clear u s).trans (perform_no (by simp [hdown]))
  case same => exact (exec_modeEvent mode u s).trans (perform_no (by simp [heq]))
  case clear =>
    refine answers_of_perform (exec_clear u s) hw (by simp [hup]) (congrArg State.settle ?_)
    rw [State.clear_eq, State.discardComposing_of_none (s := s.at u) hnone]
    simp only [State.cleared, Mech.cleared_eq]
    rfl
  case discards =>
    refine answers_of_perform (exec_clear u s) hw (by simp [hup]) (congrArg State.settle ?_)
    rw [State.clear_eq, State.discardComposing_of_composing (s := s.at u) hr hx hc]
    simp only [State.cleared, Mech.cleared_eq]
    rfl
  case attended =>
    refine answers_of_perform (exec_modeEvent mode u s) hw (by simp [hne]) (congrArg State.settle ?_)
    rw [hm]
    exact (s.at u).modeChanged_attended
  case composed =>
    refine answers_of_perform (exec_modeEvent mode u s) hw (by simp [hne]) (congrArg State.settle ?_)
    subst hm
    rw [State.modeChanged_unattended,
      State.discardComposing_of_composing (s := (s.at u).turned .unattended) hr hx hc]
    rw [State.closeOpenText_of_not]
    · rfl
    · split
      · rw [State.closeLocalRun_eq]; exact hno
      · exact hno
  case unattended =>
    refine answers_of_perform (exec_modeEvent mode u s) hw (by simp [hne]) (congrArg State.settle ?_)
    subst hm
    rw [State.modeChanged_unattended, State.discardComposing_of_none (s := (s.at u).turned .unattended) hnone]
    rfl

end Sys2Proof.Machine
end

section
/-! Writing to the copy queue while the readers take nothing (sections 5.2, 5.5, 5.6): an entry joins the tail, and
a pointer that stood there goes past an entry that is not for its consumer. -/

namespace Sys2Proof.Machine

open Sys2Proof

/-- Where a pointer at rest at `place` rests once `e` has joined the tail (R99). -/
def CopyQueue.placeAfter (q : CopyQueue) (isFor : Entry → Bool) (place : Nat) (e : Entry) : Nat :=
  if place < q.entries.length ∨ isFor e = true then place else place + 1

/-- The mechanism once `e` has joined the tail and the pointers rest again (R86, R99). -/
def Mech.joined (m : Mech) (e : Entry) : Mech := { m with queue := { m.queue.append e with
  printAt := m.queue.placeAfter Entry.forPrint m.queue.printAt e
  punchAt := if m.punch.switch = .off then m.queue.punchAt
    else m.queue.placeAfter Entry.forPunch m.queue.punchAt e } }

/-- An entry that joins is not passed by both pointers at once: the printer takes it or stands before it, or the
punch does. -/
def Mech.Admits (m : Mech) (e : Entry) : Prop :=
  m.queue.printEntry.isSome = true ∨ m.punch.switch ≠ .off ∨ e.forPrint = true

theorem Entry.for_one (e : Entry) : e.forPrint = true ∨ e.forPunch = true := by
  cases e with
  | char c d dest => cases dest <;> simp [Entry.forPrint, Entry.forPunch]
  | gap n dest => cases dest <;> simp [Entry.forPrint, Entry.forPunch]
  | runStart => simp [Entry.forPrint]
  | runEnd => simp [Entry.forPrint]

theorem passOver_append {isFor : Entry → Bool} {q : CopyQueue} {place : Nat} {e : Entry}
    (hplace : place ≤ q.entries.length) (hrest : q.entries[place]?.all isFor = true) :
    passOver isFor (q.entries ++ [e]) place = q.placeAfter isFor place e := by
  unfold CopyQueue.placeAfter
  rcases Nat.lt_or_ge place q.entries.length with hlt | hge
  · rw [if_pos (.inl hlt)]
    refine passOver_of_rests ?_
    rw [List.getElem?_append_left hlt]
    exact hrest
  · obtain rfl : place = q.entries.length := Nat.le_antisymm hplace hge
    cases he : isFor e <;> simp [passOver, he]

theorem CopyQueue.placeAfter_le (q : CopyQueue) (isFor : Entry → Bool) {place : Nat} (e : Entry)
    (h : place ≤ q.entries.length) : q.placeAfter isFor place e ≤ q.entries.length + 1 := by
  unfold CopyQueue.placeAfter
  split <;> omega

theorem CopyQueue.getElem?_placeAfter {q : CopyQueue} {isFor : Entry → Bool} {place : Nat} (e : Entry)
    (hplace : place ≤ q.entries.length) (hrest : q.entries[place]?.all isFor = true) :
    (q.entries ++ [e])[q.placeAfter isFor place e]?.all isFor = true := by
  rw [← passOver_append hplace hrest, getElem?_passOver]
  cases hf : List.find? isFor (List.drop place (q.entries ++ [e])) with
  | none => rfl
  | some x => exact List.find?_some (p := isFor) hf

theorem CopyQueue.printEntry_isSome (q : CopyQueue) : q.printEntry.isSome = true ↔ q.printAt < q.entries.length := by
  simp [CopyQueue.printEntry]

theorem CopyQueue.punchEntry_isSome (q : CopyQueue) : q.punchEntry.isSome = true ↔ q.punchAt < q.entries.length := by
  simp [CopyQueue.punchEntry]

theorem Mech.joined_punchAt_of_on {m : Mech} (h : m.punch.switch ≠ .off) (e : Entry) :
    (m.joined e).queue.punchAt = m.queue.placeAfter Entry.forPunch m.queue.punchAt e := if_neg h

theorem Mech.joined_punchAt_of_off {m : Mech} (h : m.punch.switch = .off) (e : Entry) :
    (m.joined e).queue.punchAt = m.queue.punchAt := if_pos h

/-- A joining entry leaves the pointers at rest. -/
theorem Mech.joined_pointersRest {m : Mech} {e : Entry} (hm : m.pointersRest) (he : m.Admits e) :
    (m.joined e).pointersRest := by
  obtain ⟨hprint, hpunch, hmin, hfor, hforPunch, hoff, hhead⟩ := hm
  have hpa := m.queue.placeAfter_le Entry.forPrint e hprint
  have hua := m.queue.placeAfter_le Entry.forPunch e hpunch
  refine ⟨?printIn, ?punchIn, ?none, ?print, fun hs => ?punch, fun hs => ?behind, fun hh => ?head⟩
  case printIn => simpa [Mech.joined, CopyQueue.append] using hpa
  case punchIn =>
    simp only [Mech.joined, CopyQueue.append, List.length_append, List.length_singleton]
    split <;> omega
  case none =>
    have hone := e.for_one
    simp only [Mech.joined, CopyQueue.placeAfter]
    by_cases hs : m.punch.switch = .off
    · have := hoff hs
      have : m.queue.printAt = 0 := by omega
      rw [if_pos hs, this]
      rcases Nat.eq_zero_or_pos m.queue.entries.length with h0 | hpos
      · rcases he with he | he | he
        · rw [CopyQueue.printEntry_isSome] at he
          omega
        · exact absurd hs he
        · simp [he]
      · simp [hpos]
    · rw [if_neg hs]
      rcases Nat.eq_zero_or_pos m.queue.entries.length with h0 | hpos
      · rcases hone with h | h <;> simp [h] <;> omega
      · rcases Nat.eq_zero_or_pos m.queue.printAt with h | h
        · simp [h, hpos]
        · have : m.queue.punchAt = 0 := by omega
          simp [this, hpos]
  case print => exact CopyQueue.getElem?_placeAfter e hprint hfor
  case punch =>
    rw [CopyQueue.punchEntry, Mech.joined_punchAt_of_on (m := m) hs]
    exact CopyQueue.getElem?_placeAfter e hpunch (hforPunch hs)
  case behind =>
    have := hoff hs
    rw [Mech.joined_punchAt_of_off (m := m) hs]
    simp only [Mech.joined, CopyQueue.placeAfter]
    split
    · omega
    · rename_i hno
      rcases he with he | he | he
      · exact absurd (.inl (m.queue.printEntry_isSome.mp he)) hno
      · exact absurd hs he
      · exact absurd (.inr he) hno
  case head =>
    have h := hhead hh
    rw [CopyQueue.printEntry_isSome] at h ⊢
    simp only [Mech.joined, CopyQueue.append, CopyQueue.placeAfter, h, true_or, if_true, List.length_append]
    omega

theorem CopyQueue.movedTo_of_none {q : CopyQueue} {print punch : Nat} (h : min print punch = 0) :
    q.movedTo print punch = { q with printAt := print, punchAt := punch } := by
  simp [CopyQueue.movedTo, h]

/-- The pointers' rest once an entry has joined (R99, R101). -/
theorem Mech.rest_append {m : Mech} {e : Entry} (hm : m.pointersRest) (he : m.Admits e) :
    Mech.rest { m with queue := m.queue.append e } = m.joined e := by
  obtain ⟨-, -, hmin, -, -, hbehind, -⟩ := m.joined_pointersRest hm he
  obtain ⟨hprint, hpunch, -, hfor, hforPunch, -⟩ := hm
  have hpr : passOver Entry.forPrint (m.queue.entries ++ [e]) m.queue.printAt =
      m.queue.placeAfter Entry.forPrint m.queue.printAt e := passOver_append hprint hfor
  by_cases hs : m.punch.switch = .off
  · have hle : m.queue.placeAfter Entry.forPrint m.queue.printAt e ≤ m.queue.punchAt := by
      rw [← Mech.joined_punchAt_of_off hs e]
      exact hbehind hs
    have hgone : min (m.queue.placeAfter Entry.forPrint m.queue.printAt e) m.queue.punchAt = 0 := by
      rw [← Mech.joined_punchAt_of_off hs e]
      exact hmin
    rw [Mech.rest_of_off (by exact hs)]
    dsimp only [CopyQueue.append]
    rw [hpr, Nat.max_eq_left hle, Nat.sub_eq_zero_of_le hle, CopyQueue.movedTo_of_none hgone]
    simp only [Mech.joined, if_pos hs]
    rfl
  · have hpu : passOver Entry.forPunch (m.queue.entries ++ [e]) m.queue.punchAt =
        m.queue.placeAfter Entry.forPunch m.queue.punchAt e := passOver_append hpunch (hforPunch hs)
    have hgone : min (m.queue.placeAfter Entry.forPrint m.queue.printAt e)
        (m.queue.placeAfter Entry.forPunch m.queue.punchAt e) = 0 := by
      rw [← Mech.joined_punchAt_of_on hs e]
      exact hmin
    rw [Mech.rest_of_on (by exact hs)]
    dsimp only [CopyQueue.append]
    rw [hpr, hpu, CopyQueue.movedTo_of_none hgone]
    simp only [Mech.joined, if_neg hs]
    rfl

/-- With the motor not RUNNING an entry that is written joins the tail, and the readers take nothing (R99, R105). -/
theorem Mech.write_of_stopped {m : Mech} {e : Entry} (hrun : m.motor.state ≠ .running) (hm : m.pointersRest)
    (he : m.Admits e) (p : Params) (now : Ticks) : m.write p now e = m.joined e := by
  rw [Mech.write, Mech.rest_append hm he]
  exact Mech.pump_of_stopped (m := m.joined e) hrun p now

/-- The pointers stay where both stand at an entry, or the entry that joins is for both (R99). -/
theorem Mech.joined_of_stands {m : Mech} {e : Entry}
    (hprint : m.queue.printEntry.isSome = true ∨ e.forPrint = true)
    (hpunch : m.queue.punchEntry.isSome = true ∨ e.forPunch = true) :
    m.joined e = { m with queue := m.queue.append e } := by
  rw [CopyQueue.printEntry_isSome] at hprint
  rw [CopyQueue.punchEntry_isSome] at hpunch
  simp only [Mech.joined, CopyQueue.placeAfter, if_pos hprint, if_pos hpunch, ite_self]
  rfl

theorem Mech.joined_printEntry {m : Mech} {e : Entry} (h : m.queue.printEntry.isSome = true ∨
    e.forPrint = true ∧ m.queue.printAt ≤ m.queue.entries.length) : (m.joined e).queue.printEntry.isSome = true := by
  rw [CopyQueue.printEntry_isSome] at h ⊢
  have hst : m.queue.printAt < m.queue.entries.length ∨ e.forPrint = true := h.imp_right And.left
  simp only [Mech.joined, CopyQueue.append, CopyQueue.placeAfter, if_pos hst, List.length_append, List.length_singleton]
  omega

/-! ### Several entries -/

/-- The entries of a list can join one after another. -/
def Mech.AdmitsAll (m : Mech) (es : List Entry) : Prop :=
  m.queue.printEntry.isSome = true ∨ m.punch.switch ≠ .off ∨ ∀ e ∈ es.head?, e.forPrint = true

theorem Mech.AdmitsAll.head {m : Mech} {e : Entry} {es : List Entry} (h : m.AdmitsAll (e :: es)) : m.Admits e :=
  h.imp_right (Or.imp_right fun h => h e rfl)

theorem Mech.AdmitsAll.tail {m : Mech} {e : Entry} {es : List Entry} (h : m.AdmitsAll (e :: es))
    (hm : m.pointersRest) : (m.joined e).AdmitsAll es := by
  rcases h with h | h | h
  · exact .inl (Mech.joined_printEntry (.inl h))
  · exact .inr (.inl h)
  · exact .inl (Mech.joined_printEntry (.inr ⟨h e rfl, hm.1⟩))

/-- Entries joined one after another. -/
def Mech.joinedAll (m : Mech) (es : List Entry) : Mech := es.foldl Mech.joined m

theorem Mech.writeAll_of_stopped {es : List Entry} {m : Mech} (hrun : m.motor.state ≠ .running)
    (hm : m.pointersRest) (he : m.AdmitsAll es) (p : Params) (now : Ticks) :
    m.writeAll p now es = m.joinedAll es ∧ (m.joinedAll es).pointersRest := by
  induction es generalizing m with
  | nil => exact ⟨rfl, hm⟩
  | cons e es ih =>
    rw [Mech.writeAll, Mech.write_of_stopped hrun hm he.head]
    exact ih (m := m.joined e) hrun (m.joined_pointersRest hm he.head) (he.tail hm)

/-- What joining leaves as it was, and what it makes of the entries and the held count (R86, R102). -/
theorem Mech.joinedAll_frame (es : List Entry) (m : Mech) : ∃ a b w, m.joinedAll es = { m with
    queue := { m.queue with
      entries := m.queue.entries ++ es, held := m.queue.held + runEnds es
      watermark := w, printAt := a, punchAt := b } } := by
  induction es generalizing m with
  | nil => exact ⟨m.queue.printAt, m.queue.punchAt, m.queue.watermark, by simp [Mech.joinedAll, runEnds]⟩
  | cons e es ih =>
    obtain ⟨a, b, w, h⟩ := ih (m.joined e)
    refine ⟨a, b, w, ?_⟩
    have hcount : m.queue.held + runEnds [e] + runEnds es = m.queue.held + runEnds (e :: es) := by
      rw [Nat.add_assoc, runEnds, runEnds, runEnds, ← List.countP_append]
      rfl
    change (m.joined e).joinedAll es = _
    rw [h]
    simp [Mech.joined, CopyQueue.append, ← hcount]

end Sys2Proof.Machine
end

section
/-! The keys at the composer, and CANCEL (sections 8.1, 8.3, 3.4). -/

namespace Sys2Proof.Machine

open Sys2Proof

/-! ### A key is taken -/

/-- The state with the key at the head of the queue taken (R141). -/
def State.keyTaken (s : State) (rest : List QueuedKey) : State :=
  { s with keyboard := { s.keyboard with queue := rest } }

/-- The key at the head is taken and acted on while the motor is RUNNING or in FAULT (R141). -/
theorem answers_of_key {c : Instr} {s t : State} {takes : Key → Bool} {act : QueuedKey → State → State} {k : QueuedKey}
    {rest : List QueuedKey} (hexec : exec c s = perform s (s.keyAtHead takes) (State.takeKey · act))
    (hw : s.working = true) (hmotor : s.mech.motor.state = .running ∨ s.mech.motor.state = .fault)
    (hqueue : s.keyboard.queue = k :: rest) (htakes : takes k.key = true) (hact : act k (s.keyTaken rest) = t) :
    Answers c s fun u => u = t.settle := by
  refine answers_of_perform hexec hw ?_ ?_
  · rcases hmotor with h | h <;> simp [State.keyAtHead, State.keysTaken, h, hqueue, htakes]
  · rw [← hact]
    simp only [State.takeKey, hqueue]
    rfl

theorem exec_dataKey (s : State) : exec .dataKey s = perform s (s.keyAtHead isDataKey) (State.takeKey · State.takeData) := rfl

theorem exec_formatKey (s : State) : exec .formatKey s =
    perform s (s.keyAtHead fun k => (formatCode k).isSome) (State.takeKey · State.takeFormat) := rfl

theorem exec_callKey (s : State) : exec .callKey s =
    perform s (s.keyAtHead (· == .call)) (State.takeKey · fun _ s => s.callTaken) := rfl

theorem exec_endKey (s : State) : exec .endKey s =
    perform s (s.keyAtHead (· == .endKey)) (State.takeKey · fun _ s => s.endTaken) := rfl

theorem exec_cancelKey (s : State) : exec .cancelKey s =
    perform s (s.keyAtHead (· == .cancel)) (State.takeKey · fun _ s => s.cancelTaken) := rfl

theorem exec_enqKey (s : State) : exec .enqKey s =
    perform s (s.keyAtHead (· == .enq)) (State.takeKey · fun _ s => s.requestTaken 4) := rfl

theorem exec_statusKey (s : State) : exec .statusKey s =
    perform s (s.keyAtHead (· == .status)) (State.takeKey · fun _ s => s.requestTaken 5) := rfl

theorem exec_hereIsKey (s : State) : exec .hereIsKey s =
    perform s (s.keyAtHead (· == .hereIs)) (State.takeKey · fun _ s => s.hereIsTaken) := rfl

theorem exec_bellKey (s : State) : exec .bellKey s =
    perform s (s.keyAtHead (· == .bell)) (State.takeKey · fun _ s => s.bellTaken) := rfl

theorem exec_logKey (s : State) : exec .logKey s =
    perform s (s.keyAtHead (· == .log)) (State.takeKey · fun _ s => s.logTaken) := rfl

/-! ### The cancel request -/

theorem State.toLocal_of_other {s : State} (h : s.composer.state ≠ .composeLocal) : s.toLocal = { s with
    composer := { state := .composeLocal, sendCase := none, group := none, tens := none } } := by
  simp only [State.toLocal, if_neg h]

theorem State.cancelTaken_of_local {s : State} (h : s.composer.state = .composeLocal) :
    s.cancelTaken = s.cancelRequest := by
  simp only [State.cancelTaken, h]

theorem State.cancelTaken_of_other {s : State} (h : s.composer.state ≠ .composeLocal) :
    s.cancelTaken = s.discardComposing.toLocal := by
  cases hs : s.composer.state with
  | composeLocal => exact absurd hs h
  | _ => simp only [State.cancelTaken, hs]

theorem State.cancelRequest_of_none {s : State} (h : s.active = none) : s.cancelRequest = s := by
  simp only [State.cancelRequest, h]

theorem State.cancelRequest_of_contending {s : State} {m : Message} (h : s.active = some m)
    (hm : m.state = .contending) : s.cancelRequest = s.finishMessage .cancelled .none := by
  simp only [State.cancelRequest, h, hm]

theorem State.cancelRequest_of_answering {s : State} {m : Message} (h : s.active = some m)
    (hm : m.state = .answering) : s.cancelRequest = s := by
  simp only [State.cancelRequest, h, hm]

theorem State.cancelRequest_of_sending {s : State} {m : Message} {a : Attempt} (h : s.active = some m)
    (hm : m.state = .sending) (ha : s.transmitter.attempt = some a) : s.cancelRequest =
      if a.stopped.isSome then s.finishMessage .cancelled .none
      else if s.keysCancellable a then
        { s with transmitter := { s.transmitter with attempt := some { a with cancel := true } } }
      else s := by
  simp only [State.cancelRequest, h, hm, ha]

/-- What can still be cancelled: up to the text, or a closing CONTROL that the keyer has not begun (R55). -/
theorem State.keysCancellable_iff (s : State) (a : Attempt) : s.keysCancellable a = true ↔
    a.stage = .opening ∨ (∃ n, a.stage = .header n) ∨ (∃ pos inPair, a.stage = .text pos inPair) ∨
      (a.stage = .closingEnd ∧ ∃ k, s.keyer.current = some k ∧ k.next ≠ .unasked) := by
  unfold State.keysCancellable
  cases a.stage with
  | closingEnd => cases s.keyer.current <;> simp
  | _ => simp

/-! ### What a cancelled attempt supplies -/

namespace Attempt

variable {head text : List Code} {a : Attempt} {pos : Nat}

theorem supplied_cancelled_of_text (h : a.stage = .text pos false) (hc : a.cancel = true) (more : Nat) :
    supplied head text (2 + more) a = [25, 3] := by
  have hs : a.supply head text = ({ a with stage := .cancelFunction }, some 25) := by simp [supply, h, hc]
  rw [show 2 + more = more + 1 + 1 by omega, supplied_succ _ hs, supplied_succ more (by simp only [supply]; rfl),
    supplied_of_finished rfl]

theorem supplied_cancelled_of_pair (h : a.stage = .text pos true) (hc : a.cancel = true) (more : Nat) :
    supplied head text (3 + more) a = [sentFunction text[pos]?, 25, 3] := by
  rw [show 3 + more = 2 + more + 1 by omega, supplied_succ _ (supply_function h),
    supplied_cancelled_of_text (a := a.cover _ _) rfl hc]

theorem supplied_cancelled_of_closing (h : a.stage = .closingEnd) (hc : a.cancel = true) (more : Nat) :
    supplied head text (1 + more) a = [3] := by
  have hs : a.supply head text = ({ a with stage := .finished true }, some 3) := by simp [supply, h, hc]
  rw [Nat.add_comm, supplied_succ _ hs, supplied_of_finished rfl]

/-- From character `5 - k` of the header on, what is left of it and then CONTROL CANCEL (R55). -/
theorem supplied_cancelled_of_header (hlen : head.length = 5) (k : Nat) (h : a.stage = .header (4 - k)) (hk : k ≤ 4)
    (hc : a.cancel = true) (more : Nat) :
    supplied head text (k + 3 + more) a = head.drop (4 - k) ++ [25, 3] := by
  have hget (n : Nat) (hn : n < 5) : head.drop n = head.getD n 0 :: head.drop (n + 1) := by
    have hlt : n < head.length := hlen ▸ hn
    rw [List.drop_eq_getElem_cons hlt, List.getD_eq_getElem _ _ hlt]
  induction k generalizing a with
  | zero =>
    rw [show 0 + 3 + more = 2 + more + 1 by omega, supplied_succ _ (supply_header_last h),
      supplied_cancelled_of_text (a := a.cover _ _) rfl hc, hget 4 (by omega), List.drop_of_length_le (by omega)]
    rfl
  | succ k ih =>
    have hstep := supply_header (head := head) (text := text) h (by omega)
    rw [show 4 - (k + 1) + 1 = 4 - k by omega] at hstep
    rw [show k + 1 + 3 + more = k + 3 + more + 1 by omega, supplied_succ _ hstep,
      ih (a := a.cover _ _) rfl (by omega) hc, hget (4 - (k + 1)) (by omega),
      show 4 - (k + 1) + 1 = 4 - k by omega]
    rfl

end Attempt

/-! ### The local run's close -/

theorem State.closeLocalRun_of_none {s : State} (h : s.mech.queue.localRun = .none) : s.closeLocalRun = s := by
  simp only [State.closeLocalRun, h]

/-- With the motor not RUNNING the RUN-END of the local run joins the tail (R86, R92). -/
theorem Mech.write_runEnd {m : Mech} (hrun : m.motor.state ≠ .running) (hm : m.pointersRest) (p : Params) (now : Ticks) :
    m.write p now .runEnd = { m with queue := m.queue.append .runEnd } := by
  rw [Mech.write_of_stopped hrun hm (.inr (.inr rfl)), Mech.joined_of_stands (.inr rfl) (.inr rfl)]

/-- Settles O48: CANCEL by the composer's state and the active record's, the local run's close, and the supply. -/
theorem cancelActsByTheState : Obligations.CancelActsByTheState := by
  refine ⟨fun s k rest hw hmotor hqueue hk => ⟨fun r m hs hr hb hm => ?discards, fun hs => ⟨fun ha => ?none,
    fun m ha => ⟨fun hm => ?contending, fun hm => ?answering, fun a hm hatt => ⟨fun hst => ?stopped,
      fun hst he => ?marked, fun hst he => ?late⟩⟩⟩⟩,
    fun s => ⟨State.closeLocalRun_of_none, fun h => ?suspended, fun h => ⟨?opened, fun hsafe hrun =>
      Mech.write_runEnd hrun hsafe.2.1 _ _⟩⟩,
    fun a head text pos more hc => ⟨fun h hlen => ?opening, fun n h hn hlen => ?header,
      fun h => Attempt.supplied_cancelled_of_text h hc more, fun h => Attempt.supplied_cancelled_of_closing h hc more,
      fun h => Attempt.supplied_cancelled_of_pair h hc more⟩⟩
  case discards =>
    refine answers_of_key (exec_cancelKey s) hw hmotor hqueue (by simp [hk]) ?_
    rw [State.cancelTaken_of_other (s := s.keyTaken rest) hs,
      State.discardComposing_of_composing (s := s.keyTaken rest) hr hb hm]
    by_cases hall : s.table.dropLast.all OutRecord.copied = true
    · rw [if_pos (by exact hall), if_pos hall, State.closeLocalRun_eq, State.closeLocalRun_eq,
        State.toLocal_of_other (by exact hs)]
      rfl
    · rw [if_neg (by exact hall), if_neg hall, State.toLocal_of_other (by exact hs)]
      rfl
  case suspended => simp only [State.closeLocalRun, h]; rfl
  case opened => simp only [State.closeLocalRun, h]; rfl
  case opening =>
    rw [show 8 + more = 4 + 3 + more + 1 by omega, Attempt.supplied_succ _ (Attempt.supply_opening h),
      Attempt.supplied_cancelled_of_header (a := { a with acc := 0, temp := none, stage := .header 0 }) hlen 4 rfl
        (by omega) hc]
    rfl
  case header =>
    rw [show 7 - n + more = 4 - n + 3 + more by omega,
      Attempt.supplied_cancelled_of_header hlen (4 - n) (by rw [h]; congr 1; omega) (by omega) hc]
    congr 2
    omega
  all_goals refine answers_of_key (exec_cancelKey s) hw hmotor hqueue (by simp [hk]) ?_
  all_goals rw [State.cancelTaken_of_local (s := s.keyTaken rest) hs]
  case none => exact State.cancelRequest_of_none ha
  case contending => exact State.cancelRequest_of_contending ha hm
  case answering => exact State.cancelRequest_of_answering ha hm
  all_goals refine (State.cancelRequest_of_sending (s := s.keyTaken rest) ha hm hatt).trans ?_
  case stopped => exact if_pos hst
  all_goals rw [if_neg (by simp [hst])]
  case marked => exact if_pos ((State.keysCancellable_iff _ a).mpr he)
  case late => exact if_neg fun h => he ((State.keysCancellable_iff _ a).mp h)

end Sys2Proof.Machine
end

section
/-! The newest record, and what the copier makes of a record that is closed (sections 8.2, 8.4). -/

namespace Sys2Proof.Machine

open Sys2Proof

/-! ### The newest record -/

theorem onLast_concat {α : Type} (f : α → α) (l : List α) (a : α) : onLast f (l ++ [a]) = l ++ [f a] := by
  induction l with
  | nil => rfl
  | cons b l ih =>
    cases l with
    | nil => rfl
    | cons c l => exact congrArg (b :: ·) ih

theorem onLast_onLast {α : Type} (f g : α → α) (l : List α) : onLast g (onLast f l) = onLast (fun a => g (f a)) l := by
  rcases l.eq_nil_or_concat' with rfl | ⟨l, a, rfl⟩
  · rfl
  · rw [onLast_concat, onLast_concat, onLast_concat]

theorem getLast?_onLast {α : Type} (f : α → α) (l : List α) : (onLast f l).getLast? = l.getLast?.map f := by
  rcases l.eq_nil_or_concat' with rfl | ⟨l, a, rfl⟩
  · rfl
  · rw [onLast_concat, List.getLast?_concat, List.getLast?_concat, Option.map_some]

theorem State.table_of_newest {s : State} {r : OutRecord} (h : s.newest = some r) : s.table = s.table.dropLast ++ [r] :=
  (List.dropLast_append_getLast? r h).symm

theorem onFirst_concat {α : Type} {q : α → Bool} {f : α → α} {l : List α} {a : α} (hl : ∀ b ∈ l, q b = false)
    (ha : q a = true) : onFirst q f (l ++ [a]) = l ++ [f a] := by
  induction l with
  | nil => simp [onFirst, ha]
  | cons b l ih =>
    have hb : ¬ q b = true := by simp [hl b]
    simp only [List.cons_append, onFirst, if_neg hb, ih fun c hc => hl c (.tail b hc)]

/-! ### A completed copy -/

/-- The record at the copier is complete: its local run is closed and the next one becomes current (R155). -/
def State.copyCompleted (s : State) : State :=
  { s.closeLocalRun with
    table := onFirst (fun r => !r.copied) (fun r => { r with copied := true }) s.table
    copier := Copier.reset }.giveBack

theorem State.completeCopies_of_done {s : State} {r : OutRecord} (h : s.copying = some r) (hc : r.closed = true)
    (hp : r.progress = r.length) (n : Nat) : s.completeCopies (n + 1) = s.copyCompleted.completeCopies n := by
  have hdone : (r.closed && r.progress == r.length) = true := by simp [hc, hp]
  have htable : s.closeLocalRun.table = s.table := by rw [State.closeLocalRun_eq]
  simp only [State.completeCopies, h, if_pos hdone, htable]
  rfl

theorem State.completeCopies_of_waiting {s : State}
    (h : ∀ r, s.copying = some r → r.closed = false ∨ r.progress ≠ r.length) (n : Nat) : s.completeCopies n = s := by
  cases n with
  | zero => rfl
  | succ n =>
    unfold State.completeCopies
    split
    · rfl
    · rename_i r hr
      rcases h r hr with h | h <;> simp [h]

theorem State.copierLooks_of_waiting {s : State}
    (h : ∀ r, s.copying = some r → r.closed = false ∨ r.progress ≠ r.length) : s.copierLooks = s :=
  State.completeCopies_of_waiting h _

theorem State.copying_concat {s : State} {l : List OutRecord} {r : OutRecord} (htable : s.table = l ++ [r])
    (hl : l.all OutRecord.copied = true) (hr : r.copied = false) : s.copying = some r := by
  have hnone : l.find? (fun r => !r.copied) = none := by simpa using hl
  simp [State.copying, htable, List.find?_append, hnone, hr]

/-- The newest record, the last whose copy was not complete, is completed: no record is left to copy (R144, R155). -/
theorem State.copierLooks_of_last {s : State} {l : List OutRecord} {r : OutRecord} (htable : s.table = l ++ [r])
    (hl : l.all OutRecord.copied = true) (hr : r.copied = false) (hc : r.closed = true) (hp : r.progress = r.length) :
    s.copierLooks =
      { s.closeLocalRun with table := l ++ [{ r with copied := true }], copier := Copier.reset }.giveBack := by
  have hfirst : onFirst (fun r => !r.copied) (fun r => { r with copied := true }) s.table =
      l ++ [{ r with copied := true }] := by
    rw [htable]
    exact onFirst_concat (fun b hb => by simp [List.all_eq_true.mp hl b hb]) (by simp [hr])
  have hlen : s.table.length = l.length + 1 := by simp [htable]
  rw [State.copierLooks, hlen, State.completeCopies_of_done (State.copying_concat htable hl hr) hc hp,
    State.copyCompleted, hfirst]
  refine State.completeCopies_of_waiting (fun x hx => ?_) _
  have hall : (l ++ [{ r with copied := true }]).all OutRecord.copied = true := by simpa using hl
  have hx' : x ∈ l ++ [{ r with copied := true }] := List.mem_of_mem_drop (List.mem_of_find?_eq_some hx)
  have hno : ¬ x.copied = true := by simpa using List.find?_some hx
  exact absurd (List.all_eq_true.mp hall x hx') hno

/-! ### The open local record -/

/-- The table with the open local record closed (R146, R148). -/
def State.textShut (s : State) : State :=
  { s with table := onLast (fun r => { r with body := .text false }) s.table }

theorem State.hasOpenText_iff {s : State} : s.hasOpenText = true ↔ ∃ r, s.newest = some r ∧ r.isOpenText = true := by
  simp only [State.hasOpenText, Option.any_eq_true]

theorem State.closeOpenText_of_open {s : State} (h : s.hasOpenText = true) : s.closeOpenText = s.textShut.copierLooks :=
  if_pos h

end Sys2Proof.Machine
end

section
/-! Character keys (section 8.3). -/

namespace Sys2Proof.Machine

open Sys2Proof

/-! ### Room -/

theorem Store.room_iff {st : Store} (h : st.chars.length ≤ 1024) (n : Nat) : n ≤ st.free ↔ st.chars.length + n ≤ 1024 := by
  change n ≤ 1024 - st.chars.length ↔ _
  omega

theorem State.makeRoom_of_room {s : State} {n : Nat} (h : n ≤ s.store.free) : s.makeRoom n = s :=
  if_neg fun h' => absurd h'.2.1 (by omega)

theorem State.makeRoom_of_no_text {s : State} (h : s.hasOpenText = false) (n : Nat) : s.makeRoom n = s :=
  if_neg fun h' => by simp [h] at h'

theorem State.makeRoom_of_kept {s : State} {r : OutRecord} (hr : s.newest = some r)
    (h : 2 ≤ s.table.length ∨ r.progress ≠ r.length) (n : Nat) : s.makeRoom n = s := by
  refine if_neg fun h' => ?_
  obtain ⟨-, -, hone, hdone⟩ := h'
  rcases h with h | h
  · omega
  · simp [hr, h] at hdone

theorem State.charInLocal_of_open {s : State} {act : Option Case → StoreAction}
    (hroom : s.makeRoom (act s.composer.sendCase).chars.length = s) (h : s.hasOpenText = true) : s.charInLocal act =
      if (act s.composer.sendCase).chars.length ≤ s.store.free then s.takeAction (act s.composer.sendCase) else s.ring := by
  rw [State.charInLocal, hroom]
  exact if_pos h

theorem State.charInLocal_of_new {s m : State} {act : Option Case → StoreAction}
    (hroom : s.makeRoom (act s.composer.sendCase).chars.length = m) (h : m.hasOpenText = false) : s.charInLocal act =
      if m.table.length < 8 ∧ (act none).chars.length ≤ m.store.free then
        (m.makeRecord (.text true)).takeAction (act none)
      else m.ring := by
  rw [State.charInLocal, hroom]
  exact if_neg (by simp [h])

/-! ### Which keys store, and what -/

/-- The store action of a pair of characters and send case. -/
def actionOf (act : Option Case → List Code × Option Case) (sent : Option Case) : StoreAction :=
  { chars := (act sent).1, after := (act sent).2 }

/-- The command `c` takes the key `k`, which stores `act` (R147, R153, R154). -/
def State.Sends (s : State) (c : Instr) (k : QueuedKey) (act : Option Case → List Code × Option Case) : Prop :=
  (c = .dataKey ∧ ∃ d case, k = { key := .data d, case := some case } ∧
    act = fun sent => (if sent = some case then [dataCode d] else [caseCode case, dataCode d], some case)) ∨
  (c = .formatKey ∧ ∃ code, formatCode k.key = some code ∧
    act = fun sent => ([code], if code = 26 ∧ s.loader.params.unshift = true then some .alpha else sent)) ∨
  (c = .hereIsKey ∧ k.key = .hereIs ∧
    act = fun sent =>
      ((if sent = some .alpha then [] else [30]) ++ s.loader.params.answerBack,
        s.loader.params.answerBack.foldl (fun x code =>
          if code = 29 then some .numeric
          else if code = 30 ∨ (code = 26 ∧ s.loader.params.unshift = true) then some .alpha
          else x) (some .alpha))) ∨
  (c = .bellKey ∧ k.key = .bell ∧ s.composer.state ≠ .composeLocal ∧ act = fun sent => ([25, 4], sent))

theorem dataAction_eq (c : Code) (case : Case) : dataAction c case =
    actionOf fun sent => (if sent = some case then [c] else [caseCode case, c], some case) := by
  funext sent
  by_cases h : sent = some case <;> simp [dataAction, actionOf, h]

theorem caseAfter_eq (unshift : Bool) (c : Code) (k : Option Case) : caseAfter unshift c k =
    if c = 29 then some .numeric else if c = 30 ∨ (c = 26 ∧ unshift = true) then some .alpha else k := by
  by_cases h : c = 30 <;> simp [caseAfter, h]

theorem hereIsAction_eq (unshift : Bool) (codes : List Code) : hereIsAction unshift codes = actionOf fun sent =>
    ((if sent = some .alpha then [] else [30]) ++ codes,
      codes.foldl (fun x code => if code = 29 then some .numeric
        else if code = 30 ∨ (code = 26 ∧ unshift = true) then some .alpha else x) (some .alpha)) := by
  funext sent
  simp only [hereIsAction, actionOf, caseAfter_eq]

/-- Each of the four commands stores the codes of its key, by the composer's state (R146, R149 to R151). -/
theorem answers_of_sends {s : State} {c : Instr} {k : QueuedKey} {rest : List QueuedKey}
    {act : Option Case → List Code × Option Case} {t : State} (hw : s.working = true)
    (hmotor : s.mech.motor.state = .running ∨ s.mech.motor.state = .fault) (hqueue : s.keyboard.queue = k :: rest)
    (hsends : s.Sends c k act) (hstate : s.composer.state ≠ .address)
    (hkey : (s.keyTaken rest).charKey (actionOf act) = t) : Answers c s fun u => u = t.settle := by
  subst hkey
  obtain ⟨rfl, d, case, rfl, rfl⟩ | ⟨rfl, code, hcode, rfl⟩ | ⟨rfl, hk, rfl⟩ | ⟨rfl, hk, hlocal, rfl⟩ := hsends
  · refine answers_of_key (exec_dataKey s) hw hmotor hqueue rfl ?_
    rw [← dataAction_eq]
    simp only [State.takeData, State.dataKeyTaken]
    split
    · rename_i h; exact absurd h hstate
    · rfl
  · refine answers_of_key (exec_formatKey s) hw hmotor hqueue (by simp [hcode]) ?_
    simp only [State.takeFormat, hcode]
    rfl
  · refine answers_of_key (exec_hereIsKey s) hw hmotor hqueue (by simp [hk]) ?_
    rw [← hereIsAction_eq]
    rfl
  · refine answers_of_key (exec_bellKey s) hw hmotor hqueue (by simp [hk]) ?_
    simp only [State.bellTaken, State.charKey]
    cases hs : s.composer.state with
    | composeLocal => exact absurd hs hlocal
    | address => exact absurd hs hstate
    | kind => simp only [State.keyTaken, hs]; rfl
    | text => simp only [State.keyTaken, hs]; rfl

theorem State.charKey_of_local {s : State} (h : s.composer.state = .composeLocal) (act : Option Case → StoreAction) :
    s.charKey act = s.charInLocal act := by
  simp only [State.charKey, h]

theorem State.charKey_of_text {s : State} (h : s.composer.state = .text) (act : Option Case → StoreAction) :
    s.charKey act = s.charInText act := by
  simp only [State.charKey, h]

theorem State.charKey_of_kind {s : State} (h : s.composer.state = .kind) (act : Option Case → StoreAction) :
    s.charKey act = s.kindToText.charInText act := by
  simp only [State.charKey, h]

/-- A record that is made takes the characters of its first key (R143, R146). -/
theorem State.makeRecord_takeAction (s : State) (body : RecordBody) (a : StoreAction) :
    (s.makeRecord body).takeAction a = { s with
      store := { s.store with chars := s.store.chars ++ a.chars }
      table := s.table ++ [{
        start := (s.store.base + s.store.chars.length) % 1024, length := a.chars.length
        progress := 0, copied := false, body := body }]
      composer := { s.composer with sendCase := a.after } } := by
  simp only [State.takeAction, State.storeChars, State.makeRecord, onLast_concat, Nat.zero_add]
  rfl

/-- The open local record, which is the only one and copied as far as it goes, is closed and given back (R146, R155). -/
theorem State.closeOpenText_of_only {s : State} {r : OutRecord} (htable : s.table = [r]) (hopen : s.hasOpenText = true)
    (hr : r.copied = false) (hp : r.progress = r.length) : s.closeOpenText =
      { s.closeLocalRun with
        table := []
        store := { base := (s.store.base + r.length) % 1024, chars := s.store.chars.drop r.length }
        copier := Copier.reset } := by
  have hshut : s.textShut.table = [] ++ [{ r with body := .text false }] := by
    simp only [State.textShut, htable, List.nil_append]
    rfl
  rw [State.closeOpenText_of_open hopen,
    State.copierLooks_of_last hshut (by simp) (by exact hr) rfl (by exact hp), State.closeLocalRun_eq, State.closeLocalRun_eq]
  simp only [State.giveBack, List.nil_append, List.takeWhile, OutRecord.finished, Bool.and_self, List.map_cons,
    List.map_nil, List.sum_cons, List.sum_nil, Nat.add_zero, List.length_singleton, List.drop_succ_cons, List.drop_zero]
  rfl

/-! ### The local run's close at the mechanism -/

/-- The mechanism with the port released behind a local run's RUN-END (R91, R92). -/
def Mech.localReleased (w : Mech) : Mech := { w with queue := { w.queue.releasePort with localRun := .none } }

theorem Mech.localClosed_of_none {m : Mech} (h : m.queue.localRun = .none) (p : Params) (now : Ticks) :
    m.localClosed p now = m := by simp only [Mech.localClosed, h]

theorem Mech.localClosed_of_suspended {m : Mech} (h : m.queue.localRun = .suspended) (p : Params) (now : Ticks) :
    m.localClosed p now = { m with queue := { m.queue with localRun := .none, copierWaits := false } } := by
  simp only [Mech.localClosed, h]

theorem Mech.localClosed_of_opened {m : Mech} (h : m.queue.localRun = .opened) (p : Params) (now : Ticks) :
    m.localClosed p now = (m.write p now .runEnd).localReleased := by
  simp only [Mech.localClosed, h]
  rfl

theorem Mech.settle_port (p : Params) (now : Ticks) (m : Mech) :
    (m.settle p now).queue.holder = m.queue.holder ∧ (m.settle p now).queue.localRun = m.queue.localRun :=
  have h := (Mech.settle_frame p now m).1
  ⟨congrArg Prod.fst h, congrArg (fun x => x.2.1) h⟩

/-- A key that finds its one record copied and no room closes it and begins a new one (R146, R155). -/
theorem State.charInLocal_of_given_back {s : State} {r : OutRecord} {act : Option Case → StoreAction}
    (htable : s.table = [r]) (hopen : s.hasOpenText = true) (hr : r.copied = false) (hp : r.progress = r.length)
    (hfull : s.store.free < (act s.composer.sendCase).chars.length) (hfit : (act none).chars.length ≤ r.length)
    (hlen : r.length ≤ s.store.chars.length) (hstore : s.store.chars.length ≤ 1024) : s.charInLocal act = { s with
      mech := s.mech.localClosed s.loader.params s.now
      store := {
        base := (s.store.base + r.length) % 1024
        chars := s.store.chars.drop r.length ++ (act none).chars }
      table := [{
        start := ((s.store.base + r.length) % 1024 + (s.store.chars.length - r.length)) % 1024
        length := (act none).chars.length, progress := 0, copied := false, body := .text true }]
      copier := { case := none, inPair := false }
      composer := { s.composer with sendCase := (act none).after } } := by
  have hone : s.table.length = 1 := by rw [htable]; rfl
  have hnew : s.newest = some r := by rw [State.newest, htable]; rfl
  have hroom : s.makeRoom (act s.composer.sendCase).chars.length = s.closeOpenText :=
    if_pos ⟨hopen, hfull, hone, by simp [hnew, hp]⟩
  have hclose := State.closeOpenText_of_only htable hopen hr hp
  have hfree : (act none).chars.length ≤ s.closeOpenText.store.free := by
    rw [hclose, Store.room_iff]
    · simp only [List.length_drop]; omega
    · simp only [List.length_drop]; omega
  rw [State.charInLocal_of_new hroom (by rw [hclose]; rfl), if_pos ⟨by rw [hclose]; exact Nat.succ_pos 7, hfree⟩,
    State.makeRecord_takeAction, hclose, State.closeLocalRun_eq]
  simp only [List.length_drop, List.nil_append]
  rfl

/-- Settles O46: the keys that store, by the composer's state and the room. -/
theorem characterKeysAreStored : Obligations.CharacterKeysAreStored := by
  intro s c k rest act hw hmotor hqueue hstore p state sends left rung stored longer used now
  have taken {t : State} (hs : sends) (hstate : s.composer.state ≠ .address)
      (ht : (s.keyTaken rest).charKey (actionOf act) = t) : Answers c s fun u => u = t.settle :=
    answers_of_sends hw hmotor hqueue hs hstate ht
  have hroom (n : Nat) : n ≤ s.store.free ↔ used + n ≤ 1024 := Store.room_iff hstore n
  have hnow : now.1.length ≤ s.store.free ↔ used + now.1.length ≤ 1024 := hroom _
  refine ⟨fun hs hst hfit => ?joins, fun hs hst hfull => ?refusedInText, fun hs hst hopen htab hfit => ?begins,
    fun hs hst hopen hfull => ?refusedNew, fun hs hst hfit => ?fromKind, fun hs hst hfull => ?refusedInKind,
    fun r hs hst hopen hfull hr hno => ?refusedInLocal, fun r hs hst hopen hfull hr hp hc hfit hlen => ?givenBack,
    fun hc hk hst => ?bell⟩
  case joins =>
    rcases hst with hst | ⟨hst, hopen⟩
    · refine taken hs (by simp [show s.composer.state = _ from hst]) ?_
      rw [State.charKey_of_text (s := s.keyTaken rest) hst]
      exact if_pos (hnow.mpr hfit)
    · refine taken hs (by simp [show s.composer.state = _ from hst]) ?_
      rw [State.charKey_of_local (s := s.keyTaken rest) hst,
        State.charInLocal_of_open (State.makeRoom_of_room (s := s.keyTaken rest) (hnow.mpr hfit)) hopen]
      exact if_pos (hnow.mpr hfit)
  case refusedInText =>
    refine taken hs (by simp [show s.composer.state = _ from hst]) ?_
    rw [State.charKey_of_text (s := s.keyTaken rest) hst]
    exact if_neg fun h => absurd (hnow.mp h) (by omega)
  case begins =>
    refine taken hs (by simp [show s.composer.state = _ from hst]) ?_
    rw [State.charKey_of_local (s := s.keyTaken rest) hst,
      State.charInLocal_of_new (State.makeRoom_of_no_text (s := s.keyTaken rest) hopen _) hopen,
      if_pos ⟨htab, (hroom _).mpr hfit⟩, State.makeRecord_takeAction]
    rfl
  case refusedNew =>
    refine taken hs (by simp [show s.composer.state = _ from hst]) ?_
    rw [State.charKey_of_local (s := s.keyTaken rest) hst,
      State.charInLocal_of_new (State.makeRoom_of_no_text (s := s.keyTaken rest) hopen _) hopen]
    refine if_neg fun h => ?_
    have h1 : s.table.length < 8 := h.1
    have h2 := (hroom _).mp h.2
    rcases hfull with h | h
    · omega
    · exact absurd h2 (Nat.not_le.mpr h)
  case fromKind =>
    refine taken hs (by simp [show s.composer.state = _ from hst]) ?_
    rw [State.charKey_of_kind (s := s.keyTaken rest) hst]
    refine (if_pos (hnow.mpr hfit)).trans ?_
    simp only [State.takeAction, State.storeChars, State.kindToText, State.onComposing, onLast_onLast]
    rfl
  case refusedInKind =>
    refine taken hs (by simp [show s.composer.state = _ from hst]) ?_
    rw [State.charKey_of_kind (s := s.keyTaken rest) hst]
    exact if_neg fun h => absurd (hnow.mp h) (by omega)
  case refusedInLocal =>
    refine taken hs (by simp [show s.composer.state = _ from hst]) ?_
    rw [State.charKey_of_local (s := s.keyTaken rest) hst,
      State.charInLocal_of_open (State.makeRoom_of_kept (s := s.keyTaken rest) hr hno _) hopen]
    exact if_neg fun h => absurd (hnow.mp h) (by omega)
  case givenBack =>
    intro q fresh
    have hfull' : s.store.free < now.1.length := Nat.lt_of_not_le fun h => absurd (hnow.mp h) (by omega)
    have hanswer := taken hs (by simp [show s.composer.state = _ from hst])
      ((State.charKey_of_local (s := s.keyTaken rest) hst _).trans
        (State.charInLocal_of_given_back (s := s.keyTaken rest) hr hopen hc hp hfull' hfit hlen hstore))
    have hclosed : Answers c s fun t => t = (fresh (s.mech.localClosed s.loader.params s.now)).settle := hanswer
    refine ⟨fun h => ?none, fun h => ?suspended, fun h => ?opened⟩
    case none => rwa [Mech.localClosed_of_none h] at hclosed
    case suspended => rwa [Mech.localClosed_of_suspended h] at hclosed
    case opened =>
      rw [Mech.localClosed_of_opened h] at hclosed
      obtain ⟨t, ht, rfl⟩ := hclosed
      obtain ⟨hholder, hrun⟩ := Mech.settle_port s.loader.params s.now (Mech.localReleased (s.mech.write s.loader.params s.now .runEnd))
      refine ⟨_, ht, rfl, hrun, hholder, fun hsafe hfault => ?_⟩
      have hstop : s.mech.motor.state ≠ .running := by simp [hfault]
      rw [Mech.write_runEnd hstop hsafe.2.1]
      obtain ⟨hsettled, -⟩ := Mech.settle_of_stopped (p := s.loader.params) (now := s.now)
        (m := Mech.localReleased { s.mech with queue := s.mech.queue.append .runEnd }) hstop
      exact ⟨congrArg CopyQueue.entries hsettled, congrArg CopyQueue.held hsettled⟩
  case bell =>
    subst hc
    refine answers_of_key (exec_bellKey s) hw hmotor hqueue (by simp [hk]) ?_
    simp only [State.bellTaken, show (s.keyTaken rest).composer.state = _ from hst]
    rfl

end Sys2Proof.Machine
end

section
/-! Composing a message (section 8.3). -/

namespace Sys2Proof.Machine

open Sys2Proof

/-! ### CALL -/

theorem State.callTaken_of_local {s : State} (h : s.composer.state = .composeLocal) : s.callTaken = s.callInLocal := by
  simp only [State.callTaken, h]

theorem State.callTaken_of_address {s : State} (h : s.composer.state = .address) : s.callTaken = s.ring := by
  simp only [State.callTaken, h]

theorem State.callTaken_of_kind {s : State} (h : s.composer.state = .kind) : s.callTaken = s.kindToText := by
  simp only [State.callTaken, h]

theorem State.callTaken_of_text {s : State} (h : s.composer.state = .text) : s.callTaken = s := by
  simp only [State.callTaken, h]

theorem State.callInLocal_of_full {s : State} (h : 8 ≤ s.table.length) : s.callInLocal = s.ring := if_pos h

/-- The state `t`, in which the open local record is closed, with a COMPOSING record made at the log and the sequence
counter of `s` (R44, R148). -/
def State.calling (s t : State) : State :=
  let made := s.log.create s.transmitter.seq (.outgoing none none none [] .none 0 0)
  { t with
    table := t.table ++ [{
      start := (t.store.base + t.store.chars.length) % 1024, length := 0
      progress := 0, copied := false
      body := .message {
        logNumber := made.2, group := 0, station := 0, kind := 1, seq := s.transmitter.seq, state := .composing
        retries := 0, collisions := 0, answers := [], content := .none } }]
    composer := { state := .address, sendCase := none, group := none, tens := none }
    log := made.1
    transmitter := { s.transmitter with seq := s.transmitter.seq + 1 } }

theorem State.callInLocal_of_room {s : State} (h : s.table.length < 8) : s.callInLocal = s.calling s.closeOpenText := by
  obtain ⟨m, tb, st, k, hclose⟩ := s.closeOpenText_frame
  have hroom : ¬ Config.tableCapacity ≤ s.table.length := Nat.not_le.mpr h
  rw [State.callInLocal, if_neg hroom, hclose]
  rfl

/-! ### The close of the open local record -/

theorem State.textShut_copying {s : State} {r : OutRecord} (h : s.textShut.copying = some r) :
    ∃ r', s.copying = some r' ∧ r'.progress = r.progress ∧ r'.length = r.length := by
  rcases s.table.eq_nil_or_concat' with htable | ⟨l, a, htable⟩
  · simp [State.copying, State.textShut, htable, onLast] at h
  · simp only [State.copying, State.textShut, htable, onLast_concat, List.find?_append] at h ⊢
    cases hl : l.find? (fun r => !r.copied) with
    | some x =>
      rw [hl] at h
      obtain rfl : x = r := by simpa using h
      exact ⟨x, rfl, rfl, rfl⟩
    | none =>
      rw [hl] at h
      cases hc : a.copied with
      | true => simp [hc] at h
      | false =>
        refine ⟨a, by simp [hc], ?_⟩
        obtain rfl : { a with body := .text false } = r := by simpa [hc] using h
        exact ⟨rfl, rfl⟩

/-- A local record whose copy has further to go is closed and waits (R148, R155). -/
theorem State.textShut_of_waiting {s : State} (h : ∀ r, s.copying = some r → r.progress ≠ r.length) :
    s.textShut.copierLooks = s.textShut := by
  refine State.copierLooks_of_waiting fun r hr => .inr ?_
  obtain ⟨r', hr', hp, hl⟩ := s.textShut_copying hr
  rw [← hp, ← hl]
  exact h r' hr'

/-- A local record copied as far as it goes is complete, and goes with the finished ones before it (R144, R155). -/
theorem State.textShut_of_done {s : State} {r : OutRecord} (hnew : s.newest = some r) (hcopy : s.copying = some r)
    (hall : s.table.dropLast.all OutRecord.copied = true) (hp : r.progress = r.length) :
    s.textShut.copierLooks =
      { s.closeLocalRun with
        table := s.table.dropLast ++ [{ r with body := .text false, copied := true }]
        copier := Copier.reset }.giveBack := by
  have hr : r.copied = false := by simpa using List.find?_some hcopy
  have htable : s.textShut.table = s.table.dropLast ++ [{ r with body := .text false }] := by
    conv_lhs => rw [State.textShut, State.table_of_newest hnew]
    exact onLast_concat ..
  rw [State.copierLooks_of_last htable hall (by exact hr) rfl (by exact hp), State.closeLocalRun_eq, State.closeLocalRun_eq]
  rfl

/-! ### The address -/

theorem State.dataKeyTaken_of_address {s : State} (h : s.composer.state = .address) (c : Code) (k : Case) :
    s.dataKeyTaken c k = if c.val ≤ 10 then s.addressDigit (c.val - 1) else s.ring := by
  simp only [State.dataKeyTaken, h]

theorem State.addressDigit_of_first {s : State} (h : s.composer.tens = none) (d : Nat) :
    s.addressDigit d = { s with composer := { s.composer with tens := some d } } := by
  simp only [State.addressDigit, h]

theorem State.addressDigit_of_dropped {s : State} {t d : Nat} (h : s.composer.tens = some t) (hv : 31 < 10 * t + d) :
    s.addressDigit d = ({ s with composer := { s.composer with tens := none } } : State).ring := by
  simp only [State.addressDigit, h, if_pos hv]

theorem State.addressDigit_of_group {s : State} {t d : Nat} (h : s.composer.tens = some t) (hv : 10 * t + d ≤ 31)
    (hg : s.composer.group = none) : s.addressDigit d =
      { s with composer := { s.composer with tens := none, group := some (toCode (10 * t + d)) } } := by
  simp only [State.addressDigit, h, if_neg (Nat.not_lt.mpr hv), hg]

theorem State.addressDigit_of_station {s : State} {t d : Nat} {g : Code} (h : s.composer.tens = some t)
    (hv : 10 * t + d ≤ 31) (hg : s.composer.group = some g) : s.addressDigit d =
      { s with
        table := onLast (OutRecord.withMessage fun m => { m with group := g, station := toCode (10 * t + d) }) s.table
        composer := { s.composer with tens := none, state := .kind } } := by
  rw [State.addressDigit, h]
  dsimp only
  rw [if_neg (Nat.not_lt.mpr hv), hg]
  rfl

/-! ### The close of a message -/

/-- A message is closed READY under its kind, with its log record (R150, R151, R173). -/
theorem State.closeReady_eq {s : State} {r : OutRecord} {m : Message} (hr : s.newest = some r)
    (hm : r.body = .message m) (hs : s.composer.state ≠ .composeLocal) (kind : Code) : s.closeReady kind =
      (State.activate { s with
        table := onLast (OutRecord.withMessage fun m => { m with kind := kind, state := .ready }) s.table
        composer := { state := .composeLocal, sendCase := none, group := none, tens := none }
        log := s.log.closeReady m.logNumber m.station kind r.length }).copierLooks := by
  have hnew : (s.onComposing fun m => { m with kind := kind, state := .ready }).newest =
      some { r with body := .message { m with kind := kind, state := .ready } } := by
    have h := getLast?_onLast (OutRecord.withMessage fun m => { m with kind := kind, state := .ready }) s.table
    rw [show s.table.getLast? = some r from hr] at h
    simp only [Option.map_some, OutRecord.withMessage, hm] at h
    exact h
  simp only [State.closeReady, hnew]
  rw [State.toLocal_of_other (by exact hs)]
  rfl

/-! ### Keys that ring, are ignored, or close -/

section
variable {s : State}

theorem State.charKey_of_address (h : s.composer.state = .address) (act : Option Case → StoreAction) :
    s.charKey act = s.ring := by simp only [State.charKey, h]

theorem State.takeFormat_of_address {k : QueuedKey} {code : Code} (hk : formatCode k.key = some code)
    (h : s.composer.state = .address) : s.takeFormat k = s.ring := by
  simp only [State.takeFormat, hk]
  exact State.charKey_of_address h _

theorem State.takeData_of_address {k : QueuedKey} {d : Fin 24} (hk : k.key = .data d) (h : s.composer.state = .address) :
    State.takeData k s = if d.val < 10 then s.addressDigit d.val else s.ring := by
  have hcode : (dataCode d).val = d.val + 1 := rfl
  simp only [State.takeData, hk]
  rw [State.dataKeyTaken_of_address h, hcode, Nat.add_sub_cancel]
  rfl

theorem State.bellTaken_of_address (h : s.composer.state = .address) : s.bellTaken = s.ring := by
  simp only [State.bellTaken, h]

theorem State.endTaken_of_local (h : s.composer.state = .composeLocal) : s.endTaken = s := by
  simp only [State.endTaken, h]

theorem State.endTaken_of_address (h : s.composer.state = .address) : s.endTaken = s.ring := by
  simp only [State.endTaken, h]

theorem State.endTaken_of_kind (h : s.composer.state = .kind) : s.endTaken = s.closeReady 1 := by
  simp only [State.endTaken, h]

theorem State.endTaken_of_text (h : s.composer.state = .text) : s.endTaken = s.closeReady 1 := by
  simp only [State.endTaken, h]

theorem State.requestTaken_of_local (h : s.composer.state = .composeLocal) (kind : Code) : s.requestTaken kind = s := by
  simp only [State.requestTaken, h]

theorem State.requestTaken_of_address (h : s.composer.state = .address) (kind : Code) : s.requestTaken kind = s.ring := by
  simp only [State.requestTaken, h]

theorem State.requestTaken_of_kind (h : s.composer.state = .kind) (kind : Code) :
    s.requestTaken kind = s.closeReady kind := by
  simp only [State.requestTaken, h]

theorem State.requestTaken_of_text (h : s.composer.state = .text) (kind : Code) : s.requestTaken kind = s := by
  simp only [State.requestTaken, h]

end

/-- Settles O47: CALL, the address digits, and the keys that close or are ignored, by the composer's state. -/
theorem messagesAreComposed : Obligations.MessagesAreComposed := by
  intro s k rest hw hmotor hqueue state left rung kept starts idle made
  have digit {d : Fin 24} {t : State} (hk : k.key = .data d) (hs : s.composer.state = .address) (hd : d.val < 10)
      (ht : (s.keyTaken rest).addressDigit d.val = t) : Answers .dataKey s fun u => u = t.settle := by
    refine answers_of_key (exec_dataKey s) hw hmotor hqueue (by simp [hk, isDataKey]) ?_
    rw [State.takeData_of_address (s := s.keyTaken rest) hk hs, if_pos hd, ht]
  have hlocal : ∀ {x : ComposerState}, s.composer.state = x → (s.keyTaken rest).composer.state = x := id
  refine ⟨fun hk => ⟨fun hs hfull => ?full, fun hs hroom hopen => ?made, fun hs hroom hopen => ⟨?shut,
      fun hwait => State.textShut_of_waiting (s := s.keyTaken rest) hwait,
      fun r hr hcopy hall hp => ?done⟩,
      fun hs => ?address, fun hs => ?kind, fun hs => ?text⟩,
    fun d hk hs => ⟨fun hd => ?letter, fun hd ht => ?tens, fun t hd ht => ⟨fun hv => ?dropped, fun hv hg => ?group,
      fun g hv hg => ?station⟩⟩,
    fun hs c key hmem hk => ?rings, fun c key hmem hk => ?ignored, fun c key kind hmem hk r m hr hm => ?closes⟩
  case rings =>
    simp only [List.mem_cons, Prod.mk.injEq, List.not_mem_nil, or_false] at hmem
    obtain ⟨rfl, rfl⟩ | ⟨rfl, rfl⟩ | ⟨rfl, rfl⟩ | ⟨rfl, rfl⟩ | ⟨rfl, rfl⟩ | ⟨rfl, rfl⟩ | ⟨rfl, rfl⟩ | ⟨rfl, rfl⟩ := hmem
    · exact answers_of_key (exec_formatKey s) hw hmotor hqueue (by simp [hk, formatCode])
        (State.takeFormat_of_address (code := 26) (by simp [hk, formatCode]) (hlocal hs))
    · exact answers_of_key (exec_formatKey s) hw hmotor hqueue (by simp [hk, formatCode])
        (State.takeFormat_of_address (code := 28) (by simp [hk, formatCode]) (hlocal hs))
    · exact answers_of_key (exec_formatKey s) hw hmotor hqueue (by simp [hk, formatCode])
        (State.takeFormat_of_address (code := 27) (by simp [hk, formatCode]) (hlocal hs))
    · exact answers_of_key (exec_endKey s) hw hmotor hqueue (by simp [hk]) (State.endTaken_of_address (hlocal hs))
    · exact answers_of_key (exec_enqKey s) hw hmotor hqueue (by simp [hk]) (State.requestTaken_of_address (hlocal hs) 4)
    · exact answers_of_key (exec_statusKey s) hw hmotor hqueue (by simp [hk]) (State.requestTaken_of_address (hlocal hs) 5)
    · exact answers_of_key (exec_hereIsKey s) hw hmotor hqueue (by simp [hk]) (State.charKey_of_address (hlocal hs) _)
    · exact answers_of_key (exec_bellKey s) hw hmotor hqueue (by simp [hk]) (State.bellTaken_of_address (hlocal hs))
  case ignored =>
    simp only [List.mem_cons, Prod.mk.injEq, List.not_mem_nil, or_false] at hmem
    obtain ⟨rfl, rfl, hs⟩ | ⟨rfl, rfl, hs⟩ | ⟨rfl, rfl, hs⟩ | ⟨rfl, rfl, hs⟩ | ⟨rfl, rfl, hs⟩ := hmem
    · exact answers_of_key (exec_endKey s) hw hmotor hqueue (by simp [hk]) (State.endTaken_of_local (hlocal hs))
    · exact answers_of_key (exec_enqKey s) hw hmotor hqueue (by simp [hk]) (State.requestTaken_of_local (hlocal hs) 4)
    · exact answers_of_key (exec_statusKey s) hw hmotor hqueue (by simp [hk]) (State.requestTaken_of_local (hlocal hs) 5)
    · exact answers_of_key (exec_enqKey s) hw hmotor hqueue (by simp [hk]) (State.requestTaken_of_text (hlocal hs) 4)
    · exact answers_of_key (exec_statusKey s) hw hmotor hqueue (by simp [hk]) (State.requestTaken_of_text (hlocal hs) 5)
  case closes =>
    have closed {x : ComposerState} (hs : s.composer.state = x) (hx : x ≠ .composeLocal) (kind : Code) :=
      State.closeReady_eq (s := s.keyTaken rest) hr hm (by rw [hlocal hs]; exact hx) kind
    simp only [List.mem_cons, Prod.mk.injEq, List.not_mem_nil, or_false] at hmem
    obtain ⟨rfl, rfl, rfl, hs⟩ | ⟨rfl, rfl, rfl, hs⟩ | ⟨rfl, rfl, rfl, hs⟩ | ⟨rfl, rfl, rfl, hs⟩ := hmem
    · exact answers_of_key (exec_endKey s) hw hmotor hqueue (by simp [hk])
        ((State.endTaken_of_kind (hlocal hs)).trans (closed hs nofun 1))
    · exact answers_of_key (exec_endKey s) hw hmotor hqueue (by simp [hk])
        ((State.endTaken_of_text (hlocal hs)).trans (closed hs nofun 1))
    · exact answers_of_key (exec_enqKey s) hw hmotor hqueue (by simp [hk])
        ((State.requestTaken_of_kind (hlocal hs) 4).trans (closed hs nofun 4))
    · exact answers_of_key (exec_statusKey s) hw hmotor hqueue (by simp [hk])
        ((State.requestTaken_of_kind (hlocal hs) 5).trans (closed hs nofun 5))
  case letter =>
    refine answers_of_key (exec_dataKey s) hw hmotor hqueue (by simp [hk, isDataKey]) ?_
    rw [State.takeData_of_address (s := s.keyTaken rest) hk hs]
    exact if_neg (Nat.not_lt.mpr hd)
  case tens => exact digit hk hs hd (State.addressDigit_of_first (s := s.keyTaken rest) ht _)
  case dropped => exact digit hk hs hd (State.addressDigit_of_dropped (s := s.keyTaken rest) ht hv)
  case group => exact digit hk hs hd (State.addressDigit_of_group (s := s.keyTaken rest) ht hv hg)
  case station => exact digit hk hs hd (State.addressDigit_of_station (s := s.keyTaken rest) ht hv hg)
  case done =>
    refine (State.textShut_of_done (s := s.keyTaken rest) hr hcopy hall hp).trans ?_
    rw [State.closeLocalRun_eq, State.closeLocalRun_eq]
    rfl
  all_goals refine answers_of_key (exec_callKey s) hw hmotor hqueue (by simp [hk]) ?_
  case full =>
    rw [State.callTaken_of_local (hlocal hs)]
    exact State.callInLocal_of_full (s := s.keyTaken rest) hfull
  case made =>
    rw [State.callTaken_of_local (hlocal hs), State.callInLocal_of_room (s := s.keyTaken rest) hroom,
      State.closeOpenText_of_not (s := s.keyTaken rest) hopen]
    rfl
  case shut =>
    rw [State.callTaken_of_local (hlocal hs), State.callInLocal_of_room (s := s.keyTaken rest) hroom,
      State.closeOpenText_of_open (s := s.keyTaken rest) hopen]
    rfl
  case address => exact State.callTaken_of_address (hlocal hs)
  case kind => exact State.callTaken_of_kind (hlocal hs)
  case text => exact State.callTaken_of_text (hlocal hs)

end Sys2Proof.Machine
end

section
/-! The traffic log and its notices (sections 10.1 to 10.6). -/

namespace Sys2Proof.Machine

open Sys2Proof

/-! ### The number of a new record -/

/-- The search for a free number passes the numbers held and stops at the first that is not, or with its fuel (R172). -/
theorem freeNumber_spec (records : List LogRecord) (fuel n : Nat) : ∃ k, k ≤ fuel ∧
    freeNumber records fuel (n % 256) = (n + k) % 256 ∧
    (k < fuel → ∀ r ∈ records, r.number ≠ (n + k) % 256) ∧
    ∀ j, j < k → ∃ r ∈ records, r.number = (n + j) % 256 := by
  induction fuel generalizing n with
  | zero => exact ⟨0, le_rfl, rfl, fun h => absurd h (by omega), fun j h => absurd h (by omega)⟩
  | succ fuel ih =>
    by_cases htaken : records.any (·.number == n % 256) = true
    · obtain ⟨k, hk, hfree, hnot, hheld⟩ := ih (n + 1)
      refine ⟨k + 1, by omega, ?_, fun h => ?_, fun j hj => ?_⟩
      · rw [freeNumber, if_pos htaken, Nat.mod_add_mod, hfree, Nat.add_assoc, Nat.add_comm 1]
      · rw [← Nat.add_assoc, Nat.add_right_comm]
        exact hnot (by omega)
      · cases j with
        | zero => simpa using htaken
        | succ j =>
          rw [← Nat.add_assoc, Nat.add_right_comm]
          exact hheld j (by omega)
    · refine ⟨0, by omega, ?_, fun _ r hr h => htaken ?_, fun j h => absurd h (by omega)⟩
      · rw [freeNumber, if_neg htaken, Nat.add_zero]
      · exact List.any_eq_true.mpr ⟨r, hr, by simpa using h⟩

/-- Fewer than 256 records leave a number free. -/
theorem taken_lt {records : List LogRecord} {n k : Nat} (hlen : records.length < 256) (hk : k ≤ 256)
    (hheld : ∀ j, j < k → ∃ r ∈ records, r.number = (n + j) % 256) : k < 256 := by
  have hsub : (Finset.range k).image (fun j => (n + j) % 256) ⊆ (records.map LogRecord.number).toFinset := by
    intro x hx
    obtain ⟨j, hj, rfl⟩ := Finset.mem_image.mp hx
    obtain ⟨r, hr, hnum⟩ := hheld j (Finset.mem_range.mp hj)
    rw [List.mem_toFinset, ← hnum]
    exact List.mem_map_of_mem hr
  have hinj : Set.InjOn (fun j => (n + j) % 256) (Finset.range k : Set Nat) := by
    intro a ha b hb hab
    simp only [Finset.coe_range, Set.mem_Iio] at ha hb
    dsimp only at hab
    omega
  have hcard := Finset.card_le_card hsub
  rw [Finset.card_image_of_injOn hinj, Finset.card_range] at hcard
  have := List.toFinset_card_le (records.map LogRecord.number)
  rw [List.length_map] at this
  omega

theorem dropOldestFinished_eq (l : List LogRecord) : dropOldestFinished l = l.eraseP LogRecord.finished := by
  induction l with
  | nil => rfl
  | cons r rs ih => 
    by_cases h : r.finished = true
    · simp [dropOldestFinished, h]
    · simp [dropOldestFinished, h, ih]

/-- The first free number from the counter on (R172). -/
theorem freeNumber_free {records : List LogRecord} {n : Nat} (hlen : records.length < 256) (hn : n < 256) :
    ∃ k, k < 256 ∧ freeNumber records 256 n = (n + k) % 256 ∧
      (∀ r ∈ records, r.number ≠ freeNumber records 256 n) ∧
      ∀ j, j < k → ∃ r ∈ records, r.number = (n + j) % 256 := by
  obtain ⟨k, hk, hfree, hnot, hheld⟩ := freeNumber_spec records 256 n
  rw [Nat.mod_eq_of_lt hn] at hfree
  have hlt := taken_lt hlen hk hheld
  exact ⟨k, hlt, hfree, by rw [hfree]; exact hnot hlt, hheld⟩

/-! ### A record that is changed -/

theorem Log.update_other {l : Log} {n i : Nat} {f : LogRecord → LogRecord} {r : LogRecord} (hr : l.records[i]? = some r)
    (h : r.number ≠ n ∨ r.finished = true) : (l.update n f).records[i]? = some r := by
  have hno : ¬ (r.number = n ∧ r.finished = false) := by
    rcases h with h | h <;> simp [h]
  rw [Log.update, List.getElem?_map, hr, Option.map_some, if_neg hno]

theorem Log.update_same {l : Log} {n i : Nat} {f : LogRecord → LogRecord} {r : LogRecord} (hr : l.records[i]? = some r)
    (hn : r.number = n) (hf : r.finished = false) : (l.update n f).records[i]? = some (f r) := by
  rw [Log.update, List.getElem?_map, hr, Option.map_some, if_pos ⟨hn, hf⟩]

theorem LogRecord.not_finished_of_outgoing {r : LogRecord} {p k a c x y} (h : r.body = .outgoing p k none a c x y) :
    r.finished = false := by
  rw [LogRecord.finished, h]
  rfl

theorem LogRecord.not_finished_of_incoming {r : LogRecord} {p k z} (h : r.body = .incoming p k none z) :
    r.finished = false := by
  rw [LogRecord.finished, h]
  rfl

/-- Settles O24: the log's changes record by record, and the notices by the body of the record. -/
theorem logRecordsAndNoticesAreFormed : Obligations.LogRecordsAndNoticesAreFormed := by
  refine ⟨fun l seq body hlen hcount => ?create,
    fun l n i r hr station kind length o answers content collisions retries io chars lost => ⟨fun l' hl' => ?others,
      fun p k a c x y hn hb => ?outgoing, fun p k z hn hb => ?incoming⟩,
    fun r p k o answers content x y => ⟨?unfinished, ?finished⟩, ?received, fun own l n => ⟨?gone, ?stands⟩,
    fun own l => ⟨?notice, fun r => ?line⟩, ?start⟩
  case create =>
    have hkept : (if Config.logCapacity ≤ l.records.length then dropOldestFinished l.records else l.records) =
        if l.records.length < 16 then l.records else l.records.eraseP LogRecord.finished := by
      rw [dropOldestFinished_eq]
      by_cases h : l.records.length < 16
      · exact (if_neg (Nat.not_le.mpr h)).trans (if_pos h).symm
      · exact (if_pos (Nat.not_lt.mp h)).trans (if_neg h).symm
    have hshort : (if l.records.length < 16 then l.records else l.records.eraseP LogRecord.finished).length < 256 := by
      split
      · omega
      · exact Nat.lt_of_le_of_lt (List.eraseP_sublist.length_le) (by omega)
    simp only [Log.create, hkept]
    exact ⟨by trivial, freeNumber_free hshort hcount⟩
  case others =>
    simp only [List.mem_cons, List.not_mem_nil, or_false] at hl'
    obtain rfl | rfl | rfl | rfl := hl'
    all_goals exact ⟨rfl, Log.update_length .., Log.update_other hr⟩
  case outgoing =>
    have hf := LogRecord.not_finished_of_outgoing hb
    refine ⟨(Log.update_same hr hn hf).trans ?_, (Log.update_same hr hn hf).trans ?_,
      (Log.update_same hr hn hf).trans ?_⟩
    all_goals simp only [hb]
  case incoming =>
    refine (Log.update_same hr hn (LogRecord.not_finished_of_incoming hb)).trans ?_
    simp only [hb]
  case unfinished => intro h; simp only [deliveryNotice, h]
  case finished =>
    intro h
    simp only [deliveryNotice, h]
    cases content <;> rfl
  case received => intro r p k o lost h; simp only [deliveryNotice, h]
  case gone => intro h; simp only [formNotice, h]
  case stands => intro r h; simp only [formNotice, h]
  case notice =>
    refine congrArg (fun f => some ([28, 27, 29] ++ (l.records.map f).flatten)) (funext fun r => ?_)
    obtain ⟨number, seq, chars, body⟩ := r
    cases body with
    | incoming peer kind o lost => cases o <;> rfl
    | outgoing peer kind o a c x y => cases o <;> cases peer <;> cases kind <;> rfl
  case line =>
    obtain ⟨number, seq, chars, body⟩ := r
    cases body with
    | incoming peer kind o lost => cases o <;> rfl
    | outgoing peer kind o a c x y => cases o <;> cases peer <;> cases kind <;> rfl
  case start =>
    intro own l n hn
    exact ⟨rfl, rfl⟩

end Sys2Proof.Machine
end

section
/-! Notices at the write port (section 5.4). -/

namespace Sys2Proof.Machine

open Sys2Proof

/-! ### A run written whole -/

/-- Where the first entry is for both readers, or both stand at entries, the pointers stay as the list joins (R99). -/
theorem Mech.joinedAll_of_stands {es : List Entry} {m : Mech} (hprint : m.queue.printAt ≤ m.queue.entries.length)
    (hpunch : m.queue.punchAt ≤ m.queue.entries.length)
    (h : (m.queue.printEntry.isSome = true ∧ m.queue.punchEntry.isSome = true) ∨
      ∀ e ∈ es.head?, e.forPrint = true ∧ e.forPunch = true) : ∃ w, m.joinedAll es = { m with
    queue := { m.queue with
      entries := m.queue.entries ++ es, held := m.queue.held + runEnds es, watermark := w } } := by
  induction es generalizing m with
  | nil => exact ⟨m.queue.watermark, by simp [Mech.joinedAll, runEnds]⟩
  | cons e es ih =>
    have hstays : m.joined e = { m with queue := m.queue.append e } := by
      rcases h with ⟨h1, h2⟩ | h
      · exact Mech.joined_of_stands (.inl h1) (.inl h2)
      · obtain ⟨h1, h2⟩ := h e rfl
        exact Mech.joined_of_stands (.inr h1) (.inr h2)
    have hlen : (m.queue.append e).entries.length = m.queue.entries.length + 1 := by simp [CopyQueue.append]
    obtain ⟨w, hw⟩ := ih (m := { m with queue := m.queue.append e }) (by rw [hlen]; exact Nat.le_succ_of_le hprint)
      (by rw [hlen]; exact Nat.le_succ_of_le hpunch)
      (.inl ⟨(CopyQueue.printEntry_isSome _).mpr (by rw [hlen]; exact Nat.lt_succ_of_le hprint),
        (CopyQueue.punchEntry_isSome _).mpr (by rw [hlen]; exact Nat.lt_succ_of_le hpunch)⟩)
    refine ⟨w, ?_⟩
    have hcount : m.queue.held + runEnds [e] + runEnds es = m.queue.held + runEnds (e :: es) := by
      rw [Nat.add_assoc, runEnds, runEnds, runEnds, ← List.countP_append]
      rfl
    change (m.joined e).joinedAll es = _
    rw [hstays, hw]
    simp [CopyQueue.append, ← hcount]

/-- With the motor not RUNNING a run that begins with a run boundary joins the tail, and the pointers stay (R86, R99). -/
theorem Mech.writeAll_of_boundary {es : List Entry} {m : Mech} (hrun : m.motor.state ≠ .running) (hm : m.pointersRest)
    (h : ∀ e ∈ es.head?, e.forPrint = true ∧ e.forPunch = true) (p : Params) (now : Ticks) :
    ∃ w, m.writeAll p now es = { m with
        queue := { m.queue with
          entries := m.queue.entries ++ es, held := m.queue.held + runEnds es, watermark := w } } ∧
      (m.writeAll p now es).pointersRest := by
  obtain ⟨hwrite, hrest⟩ := Mech.writeAll_of_stopped hrun hm (.inr (.inr fun e he => (h e he).1)) p now
  obtain ⟨w, hw⟩ := m.joinedAll_of_stands hm.1 hm.2.1 (.inr h)
  exact ⟨w, hwrite.trans hw, by rw [hwrite]; exact hrest⟩

/-! ### The head request -/

theorem exec_noticeRunWrite (s : State) : exec .noticeRunWrite s = perform s true fun s => s.testNotice.settle := rfl

theorem CopyQueue.popRequest_of_cons {q : CopyQueue} {r : Request} {rest : List Request} (h : q.requests = r :: rest) :
    q.popRequest = { q with
      requests := rest, offering := decide (rest ≠ []), copierWaits := if rest = [] then false else q.copierWaits } := by
  cases rest <;> simp [CopyQueue.popRequest, CopyQueue.tellCopier, h]

theorem State.testNotice_of_receive {s : State} (h : s.mech.queue.holder = .receive) : s.testNotice = s := if_pos h

theorem State.testNotice_of_empty {s : State} (h : s.mech.queue.holder ≠ .receive) (hr : s.mech.queue.requests = []) :
    s.testNotice = s.onQueue CopyQueue.tellCopier := by
  rw [State.testNotice, if_neg h]
  simp only [hr]

theorem State.testNotice_of_none {s : State} {r : Request} {rest : List Request} (h : s.mech.queue.holder ≠ .receive)
    (hr : s.mech.queue.requests = r :: rest) (hform : formNotice s.loader.params.own s.log r = none) :
    s.testNotice = s.onQueue CopyQueue.popRequest := by
  rw [State.testNotice, if_neg h]
  simp only [hr, hform]

theorem State.testNotice_of_codes {s : State} {r : Request} {rest : List Request} {codes : List Code}
    (h : s.mech.queue.holder ≠ .receive) (hr : s.mech.queue.requests = r :: rest)
    (hform : formNotice s.loader.params.own s.log r = some codes) (hlen : codes.length + 2 ≤ 2048) : s.testNotice =
      if s.mech.queue.entries.length + (if s.mech.queue.holder = .none then 0 else 1) + codes.length + 2 ≤ 2048 then
        (s.suspendLocalRun.writeAll (noticeRun codes)).onQueue fun q => { q with holder := .none }.popRequest
      else s.onQueue CopyQueue.tellCopier := by
  have hrun : (noticeRun codes).length = codes.length + 2 := by simp [noticeRun]
  have hfits : (noticeRun codes).length ≤ s.mech.queue.freeForOther ↔
      s.mech.queue.entries.length + (if s.mech.queue.holder = .none then 0 else 1) + codes.length + 2 ≤ 2048 := by
    rw [hrun, CopyQueue.freeForOther, CopyQueue.runOpen, CopyQueue.free]
    by_cases hn : s.mech.queue.holder = .none <;> simp [hn, Config.copyCapacity] <;> omega
  have hcap : ¬ Config.copyCapacity < (noticeRun codes).length := by
    rw [hrun]
    exact Nat.not_lt.mpr hlen
  rw [State.testNotice, if_neg h]
  simp only [hr, hform, if_neg hcap, hfits]

/-- An open local run is suspended behind its RUN-END (R93). -/
theorem State.suspendLocalRun_of_opened {s : State} (h : s.mech.queue.localRun = .opened) : s.suspendLocalRun =
    { s with mech :=
      let w := s.mech.writeAll s.loader.params s.now [.runEnd]
      { w with queue := { w.queue with localRun := .suspended, holder := .none } } } := if_pos h

theorem State.suspendLocalRun_of_not {s : State} (h : s.mech.queue.localRun ≠ .opened) : s.suspendLocalRun = s := if_neg h

/-- What suspending makes of the queue with the motor not RUNNING (R86, R93). -/
theorem State.suspendLocalRun_of_stopped {s : State} (hrun : s.mech.motor.state ≠ .running) (hm : s.mech.pointersRest) :
    ∃ w x, s.suspendLocalRun = { s with mech := { s.mech with queue := { s.mech.queue with
        entries := s.mech.queue.entries ++ if s.mech.queue.localRun = .opened then [.runEnd] else []
        held := s.mech.queue.held + if s.mech.queue.localRun = .opened then 1 else 0
        localRun := if s.mech.queue.localRun = .opened then .suspended else s.mech.queue.localRun
        watermark := w, holder := x } } } ∧
      (s.mech.queue.localRun ≠ .opened → x = s.mech.queue.holder) ∧ (s.mech.queue.localRun = .opened → x = .none) ∧
      s.suspendLocalRun.mech.pointersRest := by
  by_cases h : s.mech.queue.localRun = .opened
  · obtain ⟨w, hw, hrest⟩ := Mech.writeAll_of_boundary (es := [.runEnd]) hrun hm (by simp [Entry.forPrint, Entry.forPunch])
      s.loader.params s.now
    rw [State.suspendLocalRun_of_opened h, hw] at *
    exact ⟨w, .none, by simp [h, runEnds], fun hn => absurd h hn, fun _ => rfl, hw ▸ hrest⟩
  · rw [State.suspendLocalRun_of_not h]
    exact ⟨s.mech.queue.watermark, s.mech.queue.holder, by simp [h], fun _ => rfl, fun hn => absurd hn h, hm⟩

theorem runEnds_noticeRun (codes : List Code) : runEnds (noticeRun codes) = 1 := by
  have hchars : (codes.map printChar).countP (· == .runEnd) = 0 := by
    simp [List.countP_eq_zero, printChar]
  simp [runEnds, noticeRun, List.countP_append, hchars]

/-- The notice run written whole, and the head request gone (R96). -/
theorem State.noticeWritten {s : State} {r : Request} {rest : List Request} (hrun : s.mech.motor.state ≠ .running)
    (hm : s.mech.pointersRest) (hreq : s.mech.queue.requests = r :: rest) (codes : List Code) :
    ∃ w, (s.writeAll (noticeRun codes)).onQueue (fun q => { q with holder := .none }.popRequest) =
      { s with mech := { s.mech with queue := { s.mech.queue with
        entries := s.mech.queue.entries ++ noticeRun codes, held := s.mech.queue.held + 1, watermark := w
        holder := .none, requests := rest, offering := decide (rest ≠ [])
        copierWaits := if rest = [] then false else s.mech.queue.copierWaits } } } := by
  obtain ⟨w, hw, -⟩ := Mech.writeAll_of_boundary (es := noticeRun codes) hrun hm
    (by simp [noticeRun, Entry.forPrint, Entry.forPunch]) s.loader.params s.now
  refine ⟨w, ?_⟩
  rw [runEnds_noticeRun] at hw
  simp only [State.writeAll, State.onQueue, State.onMech, hw]
  rw [CopyQueue.popRequest_of_cons (by exact hreq)]

/-- Settling with the motor not RUNNING leaves the queue, the cycle and the column (R105, R127). -/
theorem State.settle_of_stopped {t : State} (h : t.mech.motor.state ≠ .running) :
    t.settle.mech.queue = t.mech.queue ∧ t.settle.mech.punch.cycle = t.mech.punch.cycle ∧
      t.settle.mech.printer.column = t.mech.printer.column := by
  obtain ⟨hqueue, hcycle, hcolumn, -⟩ := Mech.settle_of_stopped (p := t.loader.params) (now := t.now) h
  exact ⟨hqueue, hcycle, hcolumn⟩

/-- Settles O50: the head request by the port, its notice and the room. -/
theorem noticesAreRequestedAndWritten : Obligations.NoticesAreRequestedAndWritten := by
  refine ⟨fun s k rest hw hmotor hqueue hk => ?request, fun s hw => ⟨fun hr => ?waits, fun hr hempty => ?empty,
    fun r rest hr hreq => ⟨fun hform => ?dropped, fun codes hform => ⟨fun hlen hfull => ?full,
      fun hfit hsafe hrun => ?written⟩⟩⟩⟩
  case request => exact answers_of_key (exec_logKey s) hw hmotor hqueue (by simp [hk]) (State.post_eq _ _)
  case waits =>
    exact answers_of_perform (exec_noticeRunWrite s) hw rfl (congrArg State.settle (State.testNotice_of_receive hr))
  case empty =>
    exact answers_of_perform (exec_noticeRunWrite s) hw rfl (congrArg State.settle (State.testNotice_of_empty hr hempty))
  case dropped =>
    refine answers_of_perform (exec_noticeRunWrite s) hw rfl (congrArg State.settle ?_)
    rw [State.testNotice_of_none hr hreq hform, State.onQueue, State.onMech, CopyQueue.popRequest_of_cons hreq]
  case full =>
    refine answers_of_perform (exec_noticeRunWrite s) hw rfl (congrArg State.settle ?_)
    rw [State.testNotice_of_codes hr hreq hform hlen]
    exact if_neg (Nat.not_le.mpr hfull)
  case written =>
    obtain ⟨-, hm, ⟨hlocal, -⟩, -⟩ := hsafe
    obtain ⟨w, x, hsusp, -, -, hrest⟩ := s.suspendLocalRun_of_stopped hrun hm
    obtain ⟨w', hwritten⟩ := State.noticeWritten (s := s.suspendLocalRun) (r := r) (rest := rest)
      (by rw [hsusp]; exact hrun) hrest (by rw [hsusp]; exact hreq) codes
    rw [hsusp] at hwritten
    have htest := State.testNotice_of_codes hr hreq hform (by omega)
    rw [if_pos hfit, hsusp, hwritten] at htest
    refine answers_of_perform (exec_noticeRunWrite s) hw rfl ?_
    have hopened : (s.mech.queue.localRun = .opened) = (s.mech.queue.holder = .localRun) := propext hlocal.symm
    obtain ⟨hq, hcycle, hcolumn⟩ := State.settle_of_stopped (t := s.testNotice) (by rw [htest]; exact hrun)
    have holds {α : Type} (f : CopyQueue → α) : f s.testNotice.settle.mech.queue = f s.testNotice.mech.queue :=
      congrArg f hq
    refine ⟨by rw [htest]; rfl, (holds _).trans ?entries, (holds _).trans (by rw [htest]), (holds _).trans (by rw [htest]),
      (holds _).trans ?held, (holds _).trans ?run, (holds _).trans (by rw [htest]), (holds _).trans (by rw [htest]),
      (holds _).trans (by rw [htest]), hcycle.trans (by rw [htest]), hcolumn.trans (by rw [htest])⟩
    case entries =>
      rw [htest]
      simp only [hopened, noticeRun, List.append_assoc]
      rfl
    case held =>
      rw [htest]
      simp only [hopened]
      split <;> rfl
    case run =>
      rw [htest]
      simp only [hopened]

end Sys2Proof.Machine
end

section
/-! The local copier (sections 5.3, 8.4). -/

namespace Sys2Proof.Machine

open Sys2Proof

/-! ### The offer -/

theorem exec_localCopierWrite (s : State) : exec .localCopierWrite s =
    perform s (!s.mech.queue.copierWaits) State.copierWrites := rfl

theorem CopyQueue.refusesCopier_iff (q : CopyQueue) : q.refusesCopier = true ↔
    q.holder = .receive ∨ q.offering = true ∨ q.watermark = .stopped := by
  simp [CopyQueue.refusesCopier, or_assoc]

/-- The opener of a local run: of one that was suspended with the copier's case (R92). -/
theorem localOpener_eq (run : LocalRun) (k : Option Case) : localOpener run k =
    [printChar 28, printChar 27] ++ if decide (run = .suspended) = true then
      (match k with | some .alpha => [printChar 30] | some .numeric => [printChar 29] | none => []) else [] := by
  cases run with
  | suspended =>
    cases k with
    | none => rfl
    | some k => cases k <;> rfl
  | none => rfl
  | opened => rfl

theorem State.offer_of_refused {s : State} (h : s.mech.queue.refusesCopier = true) (c : Code) : s.offer c = none :=
  if_pos h

theorem State.offer_of_open {s : State} (h : s.mech.queue.refusesCopier = false) (hl : s.mech.queue.holder = .localRun)
    (c : Code) : s.offer c = if s.mech.queue.entries.length + 2 ≤ 2048 then
      some { s with mech := s.mech.writeAll s.loader.params s.now [.char c false (localDest s.mech.queue.localPunch)] }
    else none := by
  have hfree : 2 ≤ s.mech.queue.free ↔ s.mech.queue.entries.length + 2 ≤ 2048 := by
    simp only [CopyQueue.free, Config.copyCapacity]; omega
  simp only [State.offer, h, Bool.false_eq_true, if_false, if_pos hl, hfree]
  rfl

/-- The mechanism with a local run opened (R92). -/
def Mech.localOpened (m : Mech) : Mech := { m with queue := { m.queue with
  holder := .localRun, localRun := .opened, localPunch := m.punch.switch == .locally } }

/-- The entries with which a local run is opened (R92). -/
def State.localOpening (s : State) (c : Code) : List Entry :=
  [.runStart] ++ localOpener s.mech.queue.localRun s.copier.case ++
    [.char c false (localDest (s.mech.punch.switch == .locally))]

theorem State.offer_of_new {s : State} (h : s.mech.queue.refusesCopier = false) (hl : s.mech.queue.holder = .none)
    (c : Code) : s.offer c =
      if s.mech.queue.entries.length + (localOpener s.mech.queue.localRun s.copier.case).length + 3 ≤ 2048 then
        some { s with mech := s.mech.localOpened.writeAll s.loader.params s.now (s.localOpening c) }
      else none := by
  have hfree : (localOpener s.mech.queue.localRun s.copier.case).length + 3 ≤ s.mech.queue.free ↔
      s.mech.queue.entries.length + (localOpener s.mech.queue.localRun s.copier.case).length + 3 ≤ 2048 := by
    simp only [CopyQueue.free, Config.copyCapacity]; omega
  have hne : ¬ s.mech.queue.holder = .localRun := by rw [hl]; exact nofun
  simp only [State.offer, h, Bool.false_eq_true, if_false, if_neg hne, hfree]
  rfl

/-! ### What the copier makes of an offer -/

/-- The copier behind a character that was taken (R94). -/
def State.copierAfter (s : State) (c : Code) : Copier :=
  (if s.mech.queue.holder = .localRun then s.copier else s.copier.newRun).after s.loader.params.unshift c

theorem State.copierAfter_eq (s : State) (c : Code) : s.copierAfter c =
    if (decide (s.mech.queue.holder = .localRun) && s.copier.inPair) = true then
      { case := s.copier.case, inPair := false }
    else {
      case := if c = 29 then some .numeric
        else if c = 30 ∨ (c = 26 ∧ s.loader.params.unshift = true) then some .alpha else s.copier.case
      inPair := decide (c = 25) } := by
  unfold State.copierAfter Copier.after Copier.newRun
  rw [caseAfter_eq]
  by_cases hl : s.mech.queue.holder = .localRun
  · simp only [hl, if_true, decide_true, Bool.true_and]
    split <;> rfl
  · simp only [hl, if_false, decide_false, Bool.false_and, Bool.false_eq_true]
    rfl

/-- The state with a character taken: the record's progress and the copier go on (R94, R155). -/
def State.copied (s : State) (m : Mech) (c : Code) : State := { s with
  mech := m
  copier := s.copierAfter c
  table := onFirst (fun r => !r.copied) (fun r => { r with progress := r.progress + 1 }) s.table }

section
variable {s : State} {r : OutRecord} {c : Code}

theorem State.copierWrites_of_refused (hr : s.copying = some r) (hc : (s.store.textOf r)[r.progress]? = some c)
    (h : s.offer c = none) :
    s.copierWrites = { s with mech := { s.mech with queue := { s.mech.queue with copierWaits := true } } } := by
  simp only [State.copierWrites, hr, hc, h]
  rfl

theorem State.copierWrites_of_taken {m : Mech} (hr : s.copying = some r)
    (hc : (s.store.textOf r)[r.progress]? = some c) (h : s.offer c = some { s with mech := m }) :
    s.copierWrites = (s.copied m c).copierLooks.settle := by
  simp only [State.copierWrites, hr, hc, h]
  rfl

theorem State.copied_copying (hr : s.copying = some r) (m : Mech) :
    (s.copied m c).copying = some { r with progress := r.progress + 1 } := by
  have h := find?_onFirst (q := fun r => !r.copied) (f := fun r : OutRecord => { r with progress := r.progress + 1 })
    s.table (fun (a : OutRecord) (h : (!a.copied) = true) => h)
  rw [show s.table.find? (fun r => !r.copied) = some r from hr] at h
  exact h

/-- A record that goes on, or that is still open, leaves its run open (R155). -/
theorem State.copied_looks_of_waiting (hr : s.copying = some r) (m : Mech)
    (h : r.closed = false ∨ r.progress + 1 ≠ r.length) : (s.copied m c).copierLooks = s.copied m c := by
  refine State.copierLooks_of_waiting fun x hx => ?_
  rw [State.copied_copying hr] at hx
  obtain rfl := Option.some.inj hx
  exact h

end

/-- With the local run at its end the completion of further records leaves the mechanism (R155). -/
theorem State.completeCopies_of_no_run (n : Nat) {s : State} (h : s.mech.queue.localRun = .none)
    (hk : s.copier = Copier.reset) :
    (s.completeCopies n).mech = s.mech ∧ (s.completeCopies n).copier = Copier.reset := by
  induction n generalizing s with
  | zero => exact ⟨rfl, hk⟩
  | succ n ih =>
    by_cases hdone : ∃ r, s.copying = some r ∧ r.closed = true ∧ r.progress = r.length
    · obtain ⟨r, hr, hc, hp⟩ := hdone
      have hmech : s.copyCompleted.mech = s.mech := by
        rw [State.copyCompleted, State.closeLocalRun_of_none h]
        rfl
      rw [State.completeCopies_of_done hr hc hp]
      obtain ⟨h1, h2⟩ := ih (s := s.copyCompleted) (by rw [hmech]; exact h) rfl
      exact ⟨h1.trans hmech, h2⟩
    · rw [State.completeCopies_of_waiting fun r hr => ?_]
      · exact ⟨rfl, hk⟩
      · by_cases hc : r.closed = true
        · exact .inr fun hp => hdone ⟨r, hr, hc, hp⟩
        · exact .inl (by simpa using hc)

/-- With the last character of a closed record its local run is closed (R155). -/
theorem State.copied_looks_of_done {s : State} {r : OutRecord} {c : Code} {m : Mech} (hr : s.copying = some r)
    (hc : r.closed = true) (hp : r.progress + 1 = r.length) (hrun : m.queue.localRun = .opened) :
    (s.copied m c).copierLooks.mech = (m.write s.loader.params s.now .runEnd).localReleased ∧
      (s.copied m c).copierLooks.copier = Copier.reset := by
  have hcopying := State.copied_copying (c := c) hr m
  have hmech : (s.copied m c).copyCompleted.mech = (m.write s.loader.params s.now .runEnd).localReleased := by
    rw [State.copyCompleted, State.closeLocalRun_eq]
    exact Mech.localClosed_of_opened hrun _ _
  obtain ⟨n, hn⟩ : ∃ n, (s.copied m c).table.length = n + 1 := by
    cases ht : (s.copied m c).table with
    | nil => simp [State.copying, ht] at hcopying
    | cons x l => exact ⟨l.length, rfl⟩
  rw [State.copierLooks, hn, State.completeCopies_of_done hcopying hc hp]
  rw [← hmech]
  exact State.completeCopies_of_no_run n (by rw [hmech]; rfl) rfl

/-! ### A character that is taken -/

/-- The mechanism `m` in which the copier's character stands at the end of `entries`, in the open local run. -/
structure State.Took (s : State) (c : Code) (m : Mech) (entries : List Entry) : Prop where
  offer : s.offer c = some { s with mech := m }
  motor : m.motor.state ≠ .running
  rests : m.pointersRest
  entries : m.queue.entries = entries
  held : m.queue.held = s.mech.queue.held
  holder : m.queue.holder = .localRun
  localRun : m.queue.localRun = .opened

theorem runEnds_printChars (codes : List Code) : runEnds (codes.map printChar) = 0 := by
  simp [runEnds, List.countP_eq_zero, printChar]

theorem localDest_eq (x : PunchSwitch) : localDest (x == .locally) = if x = .locally then .both else .print := by
  cases x <;> rfl

theorem localDest_forPrint (c : Code) (b : Bool) : (Entry.char c false (localDest b)).forPrint = true := by
  cases b <;> rfl

/-- A character for the open run (R92). -/
theorem State.took_open {s : State} (hm : s.mech.pointersRest) (hrun : s.mech.motor.state ≠ .running)
    (h : s.mech.queue.refusesCopier = false) (hl : s.mech.queue.holder = .localRun)
    (ho : s.mech.queue.localRun = .opened) (hfit : s.mech.queue.entries.length + 2 ≤ 2048) (c : Code) :
    ∃ m, s.Took c m (s.mech.queue.entries ++ [.char c false (localDest s.mech.queue.localPunch)]) := by
  obtain ⟨hwrite, hrest⟩ := Mech.writeAll_of_stopped (es := [.char c false (localDest s.mech.queue.localPunch)]) hrun hm
    (.inr (.inr fun e he => by obtain rfl := Option.some.inj he; exact localDest_forPrint _ _)) s.loader.params s.now
  obtain ⟨a, b, w, hframe⟩ := s.mech.joinedAll_frame [.char c false (localDest s.mech.queue.localPunch)]
  refine ⟨_, (State.offer_of_open h hl c).trans (if_pos hfit), ?_, ?_, ?_, ?_, ?_, ?_⟩
  · rw [hwrite, hframe]; exact hrun
  · rw [hwrite]; exact hrest
  · rw [hwrite, hframe]
  · rw [hwrite, hframe]; rfl
  · rw [hwrite, hframe]; exact hl
  · rw [hwrite, hframe]; exact ho

/-- A character that opens a run (R92). -/
theorem State.took_new {s : State} (hm : s.mech.pointersRest) (hrun : s.mech.motor.state ≠ .running)
    (h : s.mech.queue.refusesCopier = false) (hl : s.mech.queue.holder = .none)
    (hfit : s.mech.queue.entries.length + (localOpener s.mech.queue.localRun s.copier.case).length + 3 ≤ 2048)
    (c : Code) : ∃ m, s.Took c m (s.mech.queue.entries ++ s.localOpening c) ∧
      m.queue.localPunch = (s.mech.punch.switch == .locally) := by
  obtain ⟨w, hwrite, hrest⟩ := Mech.writeAll_of_boundary (es := s.localOpening c) (m := s.mech.localOpened) hrun hm
    (by simp [State.localOpening, Entry.forPrint, Entry.forPunch]) s.loader.params s.now
  have hends : runEnds (s.localOpening c) = 0 := by
    rw [State.localOpening, localOpener_eq]
    split
    · cases s.copier.case with
      | none => rfl
      | some k => cases k <;> rfl
    · rfl
  refine ⟨_, ⟨(State.offer_of_new h hl c).trans (if_pos hfit), ?_, hrest, ?_, ?_, ?_, ?_⟩, ?_⟩
  · rw [hwrite]; exact hrun
  · rw [hwrite]; rfl
  · rw [hwrite, hends]; rfl
  · rw [hwrite]; rfl
  · rw [hwrite]; rfl
  · rw [hwrite]; rfl

section
variable {s : State} {r : OutRecord} {c : Code} {m : Mech} {entries : List Entry}

/-- The record goes on, and its run stays open (R155). -/
theorem State.Took.goes_on (h : s.Took c m entries) (hr : s.copying = some r)
    (hc : (s.store.textOf r)[r.progress]? = some c) (hwait : r.closed = false ∨ r.progress + 1 ≠ r.length) :
    s.copierWrites = (s.copied m c).settle ∧ s.copierWrites.mech.queue = m.queue := by
  have hall := State.copierWrites_of_taken hr hc h.offer
  rw [State.copied_looks_of_waiting hr m hwait] at hall
  exact ⟨hall, by rw [hall]; exact (State.settle_of_stopped (t := s.copied m c) h.motor).1⟩

/-- The record is at its end, and its run is closed (R155). -/
theorem State.Took.closes (h : s.Took c m entries) (hr : s.copying = some r)
    (hc : (s.store.textOf r)[r.progress]? = some c) (hclosed : r.closed = true) (hp : r.progress + 1 = r.length) :
    s.copierWrites.mech.queue = { (m.queue.append .runEnd).releasePort with localRun := .none } ∧
      s.copierWrites.copier = Copier.reset := by
  obtain ⟨hmech, hcopier⟩ := State.copied_looks_of_done (c := c) hr hclosed hp h.localRun
  rw [Mech.write_runEnd h.motor h.rests] at hmech
  rw [State.copierWrites_of_taken hr hc h.offer]
  refine ⟨(State.settle_of_stopped ?_).1.trans (by rw [hmech]; rfl), hcopier⟩
  rw [hmech]
  exact h.motor

end

/-- Settles O51: a refusal, the room at its boundary, and a character taken by an open or a new run. -/
theorem localCopierWritesItsRecord : Obligations.LocalCopierWritesItsRecord := by
  intro s r c hw hwaits hr hc q refused run case opener dest pair copier advanced waits
  have answers {P : State → Prop} (h : P s.copierWrites) : Answers .localCopierWrite s P :=
    answers_of_perform (exec_localCopierWrite s) hw (by simp [hwaits]) h
  have hrefuses : ∀ h : ¬ refused, s.mech.queue.refusesCopier = false := fun h =>
    Bool.eq_false_iff.mpr fun hr => h ((CopyQueue.refusesCopier_iff _).mp hr)
  have hopener : localOpener s.mech.queue.localRun s.copier.case = opener := localOpener_eq _ _
  have hdest : localDest (s.mech.punch.switch == .locally) = dest := localDest_eq _
  have hwritten : s.mech.queue.entries ++ s.localOpening c =
      q.entries ++ [.runStart] ++ opener ++ [.char c false dest] := by
    change _ = s.mech.queue.entries ++ _ ++ _ ++ _
    rw [State.localOpening, hopener, hdest]
    simp only [List.append_assoc]
  have hadvanced (m : Mech) : (s.copied m c).settle = advanced (s.copied m c).settle := by
    have hk : s.copierAfter c = copier := s.copierAfter_eq c
    simp only [advanced, ← hk]
    rfl
  refine ⟨fun h => ?refused, fun h hl hfull => ?noRoomOpen, fun h hl hfull => ?noRoomNew, fun h hsafe hrun =>
    ⟨fun hl hfit => ⟨fun hwait => ?goesOn, fun hclosed hp => ?closes⟩,
      fun hl hfit => ⟨fun hwait => ?goesOnNew, fun hclosed hp => ?closesNew⟩⟩⟩
  case refused =>
    exact answers (State.copierWrites_of_refused hr hc (State.offer_of_refused ((CopyQueue.refusesCopier_iff _).mpr h) c))
  case noRoomOpen =>
    exact answers (State.copierWrites_of_refused hr hc
      ((State.offer_of_open (hrefuses h) hl c).trans (if_neg (Nat.not_le.mpr hfull))))
  case noRoomNew =>
    exact answers (State.copierWrites_of_refused hr hc
      ((State.offer_of_new (hrefuses h) hl c).trans (if_neg (by rw [hopener]; exact Nat.not_le.mpr hfull))))
  all_goals obtain ⟨-, hm, ⟨hlocal, -⟩, -⟩ := hsafe
  case goesOn =>
    obtain ⟨m, ht⟩ := State.took_open hm hrun (hrefuses h) hl (hlocal.mp hl) hfit c
    obtain ⟨hall, hq⟩ := ht.goes_on hr hc hwait
    exact answers ⟨by rw [hall]; exact hadvanced m, by rw [hq]; exact ht.entries, by rw [hq]; exact ht.holder,
      by rw [hq]; exact ht.localRun⟩
  case closes =>
    obtain ⟨m, ht⟩ := State.took_open hm hrun (hrefuses h) hl (hlocal.mp hl) hfit c
    obtain ⟨hq, hk⟩ := ht.closes hr hc hclosed hp
    refine answers ⟨?_, by rw [hq]; rfl, by rw [hq], ?_, hk⟩
    · rw [hq]
      exact congrArg (· ++ [Entry.runEnd]) ht.entries
    · rw [hq]
      exact congrArg (· + 1) ht.held
  all_goals obtain ⟨m, ht, hpunch⟩ := State.took_new hm hrun (hrefuses h) hl (by rw [hopener]; exact hfit) c
  case goesOnNew =>
    obtain ⟨hall, hq⟩ := ht.goes_on hr hc hwait
    exact answers ⟨by rw [hall]; exact hadvanced m, by rw [hq]; exact ht.entries.trans hwritten,
      by rw [hq]; exact ht.holder, by rw [hq]; exact ht.localRun, by
        rw [hq, hpunch]
        cases s.mech.punch.switch <;> rfl⟩
  case closesNew =>
    obtain ⟨hq, hk⟩ := ht.closes hr hc hclosed hp
    refine answers ⟨?_, by rw [hq]; rfl, by rw [hq], ?_, hk⟩
    · rw [hq]
      exact congrArg (· ++ [Entry.runEnd]) (ht.entries.trans hwritten)
    · rw [hq]
      exact congrArg (· + 1) ht.held

end Sys2Proof.Machine
end

section
/-! The receive run at the copy queue (sections 4.4, 4.5). -/

namespace Sys2Proof.Machine

open Sys2Proof

/-! ### Writing while the readers take nothing -/

/-- The readers take nothing, and the pointers are at rest. -/
def Mech.Still (m : Mech) : Prop := m.motor.state ≠ .running ∧ m.pointersRest

/-- The state with `es` joined to the tail of its queue. -/
def State.written (s : State) (es : List Entry) : State := { s with mech := s.mech.joinedAll es }

section
variable {s : State} {es : List Entry}

theorem Mech.joinedAll_facts (es : List Entry) (m : Mech) :
    (m.joinedAll es).queue.entries = m.queue.entries ++ es ∧ (m.joinedAll es).queue.held = m.queue.held + runEnds es ∧
      (m.joinedAll es).motor = m.motor ∧ (m.joinedAll es).punch = m.punch ∧
      (m.joinedAll es).queue.holder = m.queue.holder ∧ (m.joinedAll es).queue.localRun = m.queue.localRun := by
  obtain ⟨a, b, w, h⟩ := m.joinedAll_frame es
  rw [h]
  exact ⟨rfl, rfl, rfl, rfl, rfl, rfl⟩

@[simp] theorem State.written_entries (s : State) (es : List Entry) :
    (s.written es).mech.queue.entries = s.mech.queue.entries ++ es := (s.mech.joinedAll_facts es).1

@[simp] theorem State.written_held (s : State) (es : List Entry) :
    (s.written es).mech.queue.held = s.mech.queue.held + runEnds es := (s.mech.joinedAll_facts es).2.1

@[simp] theorem State.written_motor (s : State) (es : List Entry) : (s.written es).mech.motor = s.mech.motor :=
  (s.mech.joinedAll_facts es).2.2.1

@[simp] theorem State.written_punch (s : State) (es : List Entry) : (s.written es).mech.punch = s.mech.punch :=
  (s.mech.joinedAll_facts es).2.2.2.1

@[simp] theorem State.written_holder (s : State) (es : List Entry) :
    (s.written es).mech.queue.holder = s.mech.queue.holder := (s.mech.joinedAll_facts es).2.2.2.2.1

@[simp] theorem State.written_localRun (s : State) (es : List Entry) :
    (s.written es).mech.queue.localRun = s.mech.queue.localRun := (s.mech.joinedAll_facts es).2.2.2.2.2

@[simp] theorem State.written_matcher (s : State) (es : List Entry) : (s.written es).matcher = s.matcher := rfl

theorem State.writeAll_of_still (h : s.mech.Still) (he : s.mech.AdmitsAll es) :
    s.writeAll es = s.written es ∧ (s.written es).mech.Still := by
  obtain ⟨hwrite, hrest⟩ := Mech.writeAll_of_stopped h.1 h.2 he s.loader.params s.now
  exact ⟨congrArg (fun m => { s with mech := m }) hwrite, by rw [State.written_motor]; exact h.1, hrest⟩

theorem State.write_of_still {e : Entry} (h : s.mech.Still) (he : s.mech.AdmitsAll [e]) :
    s.write e = s.written [e] ∧ (s.written [e]).mech.Still := State.writeAll_of_still h he

theorem Mech.admitsAll_of_print {m : Mech} {e : Entry} (h : e.forPrint = true) (es : List Entry) : m.AdmitsAll (e :: es) :=
  .inr (.inr fun x hx => by obtain rfl := Option.some.inj hx; exact h)

theorem Mech.admitsAll_of_or {m : Mech} {e : Entry} (h : e.forPrint = true ∨ m.punch.switch ≠ .off) (es : List Entry) :
    m.AdmitsAll (e :: es) := h.elim (Mech.admitsAll_of_print · es) fun h => .inr (.inl h)

theorem CopyQueue.room_iff (q : CopyQueue) {k : Nat} (hk : 0 < k) : k ≤ q.free ↔ q.entries.length + k ≤ 2048 := by
  simp only [CopyQueue.free, Config.copyCapacity]; omega

/-! ### The pending gap -/

theorem State.writeGap_of_none {i : Incoming} (hi : s.matcher.incoming = some i)
    (h : i.pendingGap = 0 ∨ 2048 < s.mech.queue.entries.length + 2) : s.writeGap = s := by
  have hno : ¬ (0 < i.pendingGap ∧ 2 ≤ s.mech.queue.free) := by
    rw [CopyQueue.room_iff _ (by decide)]
    omega
  rw [State.writeGap, hi]
  exact if_neg hno

theorem State.writeGap_of_room {i : Incoming} (hi : s.matcher.incoming = some i) (hgap : 0 < i.pendingGap)
    (hroom : s.mech.queue.entries.length + 2 ≤ 2048) : s.writeGap =
      (s.write (.gap i.pendingGap i.dest)).onIncoming fun i => { i with pendingGap := 0 } := by
  rw [State.writeGap, hi]
  exact if_pos ⟨hgap, (CopyQueue.room_iff _ (by decide)).mpr hroom⟩

theorem State.onIncoming_of_some {i : Incoming} (hi : s.matcher.incoming = some i) (f : Incoming → Incoming) :
    s.onIncoming f = { s with matcher := { s.matcher with incoming := some (f i) } } := by
  rw [State.onIncoming, hi]
  rfl

/-! ### An ordinary write -/

theorem State.receiveWrite_of_room {e : Entry} (hgap : s.writeGap = s) (hroom : s.mech.queue.entries.length + 2 ≤ 2048) :
    s.receiveWrite e = s.write e := by
  rw [State.receiveWrite, hgap]
  exact if_pos ((CopyQueue.room_iff _ (by decide)).mpr hroom)

/-- Without a pending gap the entries of a run's opening join one after another (R73, R74). -/
theorem State.receiveWrites_of_room (hgap : ∀ i, s.matcher.incoming = some i → i.pendingGap = 0) (h : s.mech.Still)
    (he : s.mech.AdmitsAll es) (hroom : s.mech.queue.entries.length + es.length + 1 ≤ 2048) :
    s.receiveWrites es = s.written es := by
  induction es generalizing s with
  | nil => rfl
  | cons e es ih =>
    have hnone : s.writeGap = s := by
      cases hi : s.matcher.incoming with
      | none => simp only [State.writeGap, hi]
      | some i => exact State.writeGap_of_none hi (.inl (hgap i hi))
    rw [List.length_cons] at hroom
    obtain ⟨hwrite, hstill⟩ := State.write_of_still (e := e) h (he.imp_right (Or.imp_right fun he x hx => he x hx))
    change (s.receiveWrite e).receiveWrites es = _
    rw [State.receiveWrite_of_room hnone (by omega), hwrite]
    refine ih hgap hstill (he.tail h.2) ?_
    rw [State.written_entries, List.length_append, List.length_singleton]
    omega

end

/-! ### The opening -/

/-- The state with the RUN-START of its receive run written and motor control told (R72, R90, R162). -/
def State.runStarted (s : State) : State :=
  let s := (s.suspendLocalRun.onQueue fun q => { q with holder := .receive, offering := false }).write .runStart
  { s with
    mech := { s.mech with motor := s.mech.motor.startEvent s.loader.params s.now }
    matcher := { s.matcher with carriedGap := 0 } }

/-- The run's first entries: the gap carried, the opener and the leader (R73). -/
def State.runOpening (s : State) : List Entry :=
  carriedEntries s.matcher.carriedGap ++ runOpener s.loader.params (s.matcher.incoming.any Incoming.toPunch)

theorem Motor.startEvent_not_running {d : Motor} (h : d.state ≠ .running) (p : Params) (now : Ticks) :
    (d.startEvent p now).state ≠ .running := by
  rcases d.startEvent_cases p now with hd | ⟨-, hd⟩
  · rw [hd]; exact h
  · rw [hd]; exact nofun

/-- What the RUN-START makes of the state (R72, R90, R93). -/
theorem State.runStarted_of_still {s : State} (h : s.mech.Still) : ∃ w, s.runStarted = { s with
      matcher := { s.matcher with carriedGap := 0 }
      mech := { s.mech with
        motor := s.mech.motor.startEvent s.loader.params s.now
        queue := { s.mech.queue with
          entries := s.mech.queue.entries ++ ((if s.mech.queue.localRun = .opened then [.runEnd] else []) ++ [.runStart])
          held := s.mech.queue.held + if s.mech.queue.localRun = .opened then 1 else 0
          localRun := if s.mech.queue.localRun = .opened then .suspended else s.mech.queue.localRun
          watermark := w, holder := .receive, offering := false } } } ∧
    s.runStarted.mech.Still ∧ s.runStarted.mech.queue.printEntry.isSome = true := by
  obtain ⟨w, x, hsusp, -, -, hrest⟩ := s.suspendLocalRun_of_stopped h.1 h.2
  have hstill : (s.suspendLocalRun.onQueue fun q => { q with holder := .receive, offering := false }).mech.Still := by
    refine ⟨?_, hrest⟩
    rw [hsusp]
    exact h.1
  obtain ⟨hwrite, hstill'⟩ := State.write_of_still (e := .runStart) hstill (Mech.admitsAll_of_print rfl _)
  obtain ⟨w', hboundary, -⟩ := Mech.writeAll_of_boundary (es := [.runStart]) hstill.1 hstill.2
    (by simp [Entry.forPrint, Entry.forPunch]) s.loader.params s.now
  have hmotor : ((s.suspendLocalRun.onQueue fun q => { q with holder := .receive, offering := false }).write
      .runStart).mech.motor = s.mech.motor := by
    rw [hwrite, State.written_motor, hsusp]
    rfl
  refine ⟨w', ?_, ⟨?_, ?_⟩, ?_⟩
  · rw [hsusp] at hboundary
    simp only [State.runStarted, hsusp]
    refine (congrArg (fun m => ({ s with
      matcher := { s.matcher with carriedGap := 0 }
      mech := { m with motor := m.motor.startEvent s.loader.params s.now } } : State)) hboundary).trans ?_
    simp only [State.onQueue, State.onMech, runEnds, List.append_assoc]
    rfl
  · change (Motor.startEvent _ _ _).state ≠ _
    rw [hmotor]
    exact Motor.startEvent_not_running h.1 _ _
  · change ((s.suspendLocalRun.onQueue fun q => { q with holder := .receive, offering := false }).write
      .runStart).mech.pointersRest
    rw [hwrite]
    exact hstill'.2
  · change ((s.suspendLocalRun.onQueue fun q => { q with holder := .receive, offering := false }).write
      .runStart).mech.queue.printEntry.isSome = true
    rw [hwrite]
    exact Mech.joined_printEntry (.inr ⟨rfl, hstill.2.1⟩)

/-! ### The gap and the close -/

/-- The pending gap as an entry, where two entries are free (R75, R79). -/
def State.gapEntries (s : State) (i : Incoming) : List Entry :=
  if 0 < i.pendingGap ∧ s.mech.queue.entries.length + 2 ≤ 2048 then [.gap i.pendingGap i.dest] else []

/-- What is left of the gap. -/
def State.gapLeft (s : State) (i : Incoming) : Nat := if s.gapEntries i = [] then i.pendingGap else 0

/-- The in-run notice as entries, where it is called for and eight entries are free (R79). -/
def State.noticeEntries (s : State) (i : Incoming) (d : Option Nat) : List Entry :=
  match d with
  | some x =>
    if s.mech.queue.entries.length + (s.gapEntries i).length + 8 ≤ 2048 then
      (inRunNotice i.header.originator x).map printChar
    else []
  | none => []

theorem Incoming.gap_forPrint {i : Incoming} (h : i.toPrint = true) (n : Nat) : (Entry.gap n i.dest).forPrint = true := by
  cases hp : i.toPunch <;> simp [Entry.forPrint, Incoming.dest, h, hp]

theorem State.writeGap_of_still {s : State} {i : Incoming} (hi : s.matcher.incoming = some i) (h : s.mech.Still)
    (hdest : i.toPrint = true ∨ s.mech.punch.switch ≠ .off) :
    s.writeGap = { s.written (s.gapEntries i) with
        matcher := { s.matcher with incoming := some { i with pendingGap := s.gapLeft i } } } ∧
      s.writeGap.mech.Still := by
  by_cases hgap : 0 < i.pendingGap ∧ s.mech.queue.entries.length + 2 ≤ 2048
  · obtain ⟨hwrite, hstill⟩ := State.write_of_still (e := .gap i.pendingGap i.dest) h
      (Mech.admitsAll_of_or (hdest.imp_left fun h => Incoming.gap_forPrint h _) _)
    have hentries : s.gapEntries i = [.gap i.pendingGap i.dest] := if_pos hgap
    have hleft : s.gapLeft i = 0 := by simp [State.gapLeft, hentries]
    rw [State.writeGap_of_room hi hgap.1 hgap.2, hwrite, hentries, hleft, State.onIncoming_of_some (by exact hi)]
    exact ⟨rfl, hstill⟩
  · have hentries : s.gapEntries i = [] := if_neg hgap
    have hleft : s.gapLeft i = i.pendingGap := by simp [State.gapLeft, hentries]
    rw [State.writeGap_of_none hi (by omega), hentries, hleft]
    refine ⟨?_, h⟩
    conv_lhs => rw [show s = { s with matcher := { s.matcher with incoming := s.matcher.incoming } } from rfl, hi]
    rfl

theorem runEnds_gapEntries (s : State) (i : Incoming) : runEnds (s.gapEntries i) = 0 := by
  unfold State.gapEntries
  split <;> rfl

theorem runEnds_noticeEntries (s : State) (i : Incoming) (d : Option Nat) : runEnds (s.noticeEntries i d) = 0 := by
  unfold State.noticeEntries
  split
  · split
    · exact runEnds_printChars _
    · rfl
  · rfl

theorem State.closeReceiveRun_of_shut {s : State} {i : Incoming} (hi : s.matcher.incoming = some i)
    (h : i.runOpen = false) (d : Option Nat) : s.closeReceiveRun d = s := by
  rw [State.closeReceiveRun, hi]
  exact if_neg (by simp [h])

/-- The in-run notice code by code (R178). -/
theorem inRunNotice_eq (originator : Code) {x : Nat} (hx : x ≤ 9) : inRunNotice originator x =
    [28, 27, 29, toCode (originator.val / 10 + 1), toCode (originator.val % 10 + 1), 26, toCode (x + 1)] := by
  have hlt := originator.isLt
  have htens : originator.val / 10 % 10 = originator.val / 10 := Nat.mod_eq_of_lt (by omega)
  have hdigit : x % 10 = x := Nat.mod_eq_of_lt (by omega)
  simp only [inRunNotice, digits2, digit, htens, hdigit]
  rfl

/-- The in-run notice is written where eight entries are free (R79). -/
def State.writeNotice (s : State) (originator : Code) (d : Option Nat) : State :=
  match d with
  | some x => if 8 ≤ s.mech.queue.free then s.writeAll ((inRunNotice originator x).map printChar) else s
  | none => s

theorem State.closeReceiveRun_of_open {s : State} {i : Incoming} (hi : s.matcher.incoming = some i)
    (h : i.runOpen = true) (d : Option Nat) : s.closeReceiveRun d =
      let t := ((s.writeGap.writeNotice i.header.originator d).write .runEnd).onQueue CopyQueue.releasePort
      { t with matcher := { t.matcher with
          carriedGap := addUpTo 255 t.matcher.carriedGap ((t.matcher.incoming.map Incoming.pendingGap).getD 0)
          incoming := t.matcher.incoming.map fun i => { i with runOpen := false, pendingGap := 0 } } } := by
  rw [State.closeReceiveRun, hi]
  refine (if_pos h).trans ?_
  cases d <;> rfl

theorem State.written_append (s : State) (a b : List Entry) : (s.written a).written b = s.written (a ++ b) := by
  simp only [State.written, Mech.joinedAll, List.foldl_append]

theorem State.writeNotice_of_still {s t : State} {i : Incoming} (h : t.mech.Still)
    (ht : t.mech.queue.entries.length = s.mech.queue.entries.length + (s.gapEntries i).length) (d : Option Nat) :
    t.writeNotice i.header.originator d = t.written (s.noticeEntries i d) ∧
      (t.written (s.noticeEntries i d)).mech.Still := by
  cases d with
  | none => exact ⟨rfl, h⟩
  | some x =>
    have hroom : 8 ≤ t.mech.queue.free ↔ s.mech.queue.entries.length + (s.gapEntries i).length + 8 ≤ 2048 := by
      rw [CopyQueue.room_iff _ (by decide), ht]
    by_cases hr : s.mech.queue.entries.length + (s.gapEntries i).length + 8 ≤ 2048
    · have hentries : s.noticeEntries i (some x) = (inRunNotice i.header.originator x).map printChar := if_pos hr
      rw [hentries]
      have hwrite := State.writeAll_of_still (es := (inRunNotice i.header.originator x).map printChar) h
        (Mech.admitsAll_of_print rfl _)
      exact ⟨(if_pos (hroom.mpr hr)).trans hwrite.1, hwrite.2⟩
    · have hentries : s.noticeEntries i (some x) = [] := if_neg hr
      rw [hentries]
      exact ⟨if_neg fun h8 => hr (hroom.mp h8), h⟩

/-- The run that is open is closed by its gap, its notice and its RUN-END (R75, R79). -/
theorem State.closeReceiveRun_of_still {s : State} {i : Incoming} (hi : s.matcher.incoming = some i)
    (hopen : i.runOpen = true) (h : s.mech.Still) (hdest : i.toPrint = true ∨ s.mech.punch.switch ≠ .off)
    (d : Option Nat) : s.closeReceiveRun d =
      { ((s.written (s.gapEntries i)).written (s.noticeEntries i d ++ [.runEnd])).onQueue CopyQueue.releasePort with
        matcher := { s.matcher with
          carriedGap := min 255 (s.matcher.carriedGap + s.gapLeft i)
          incoming := some { i with runOpen := false, pendingGap := 0 } } } := by
  obtain ⟨hgap, hstill⟩ := State.writeGap_of_still hi h hdest
  obtain ⟨hnotice, hstill'⟩ := State.writeNotice_of_still (s := s) (i := i) hstill (by
    rw [hgap]
    simp) d
  obtain ⟨hend, -⟩ := State.write_of_still (e := .runEnd) hstill' (Mech.admitsAll_of_print rfl _)
  rw [State.closeReceiveRun_of_open hi hopen, hnotice, hend, State.written_append, hgap]
  rfl

/-! ### The text -/

theorem State.matchText_of_called {s : State} {i : Incoming} (hs : s.matcher.state = .called)
    (hi : s.matcher.incoming = some i) (c : RxChar) : s.matchText c =
      let t := s.onIncoming fun i => { i with chars := addUpTo 65535 i.chars 1 }
      if i.disposition = .accepted then t.receiveWrite (.char c.code c.damaged i.dest)
      else if i.disposition = .lost then t.onIncoming fun i => { i with lost := addUpTo 255 i.lost 1 }
      else t := by
  rw [State.matchText]
  simp only [hs, hi]
  cases i.disposition <;> rfl

theorem State.matchText_of_other {s : State} (hs : s.matcher.state ≠ .called) (c : RxChar) : s.matchText c = s := by
  rw [State.matchText]
  split
  · rename_i h _
    exact absurd h hs
  · rfl

/-- A write joins the tail, with the held count and the watermark state (R86, R98, R102). -/
theorem CopyQueue.append_eq (q : CopyQueue) (e : Entry) : q.append e = { q with
    entries := q.entries ++ [e]
    held := if e = .runEnd then q.held + 1 else q.held
    watermark := if 1536 ≤ q.entries.length + 1 then .stopped else q.watermark } := by
  cases e <;> rfl

theorem State.receiveWrite_eq (s : State) (e : Entry) : s.receiveWrite e =
    if s.writeGap.mech.queue.entries.length + 2 ≤ 2048 then s.writeGap.write e
    else s.writeGap.onIncoming fun i =>
      { i with pendingGap := addUpTo 255 i.pendingGap 1, lost := addUpTo 255 i.lost 1 } := by
  have h := s.writeGap.mech.queue.room_iff (k := 2) (by decide)
  simp only [State.receiveWrite, h]

theorem State.openReceiveRun_eq (s : State) : s.openReceiveRun = s.runStarted.receiveWrites s.runOpening := by
  obtain ⟨m, hm⟩ := State.suspendLocalRun_only s
  simp only [State.openReceiveRun, State.runStarted, State.runOpening, hm]
  rfl

/-- Settles O52: the text by the disposition, the write, and opening, writing and closing with the readers still. -/
theorem receiveRunsKeepTheirOrder : Obligations.ReceiveRunsKeepTheirOrder := by
  refine ⟨fun s c => ⟨fun hs => State.matchText_of_other hs c, fun i hs hi => ?text⟩, fun p now e m => ?write,
    fun s i hi hb hm hrun => ⟨fun hgap hport hlocal hfit => ?opens, fun e he => ⟨fun hfit hgap => ?room,
      fun hfit hgap hdest => ?withGap, fun hfit hgap hdest => ?gapOnly, fun hfull => ?lost⟩,
      fun d h => State.closeReceiveRun_of_shut hi h d, fun hopen hport d hd hdest => ?closes⟩⟩
  case text =>
    have hcounted := State.onIncoming_of_some hi fun i => { i with chars := addUpTo 65535 i.chars 1 }
    refine ⟨fun hd => ?_, fun hd => ?_, fun ha hl => ?_⟩
    · refine (State.matchText_of_called hs hi c).trans ((if_pos hd).trans ?_)
      rw [hcounted]
      rfl
    · refine (State.matchText_of_called hs hi c).trans ((if_neg (by rw [hd]; exact nofun)).trans ((if_pos hd).trans ?_))
      rw [hcounted]
      rfl
    · refine (State.matchText_of_called hs hi c).trans ((if_neg ha).trans ((if_neg hl).trans ?_))
      rw [hcounted]
      rfl
  case write =>
    exact congrArg (fun q => (Mech.rest { m with queue := q }).pump p now) (m.queue.append_eq e)
  all_goals have hstill : s.mech.Still := ⟨hrun, hm⟩
  case opens =>
    obtain ⟨w, hstart, hstill', hprint⟩ := State.runStarted_of_still hstill
    have hopen : s.openReceiveRun = s.runStarted.written s.runOpening := by
      rw [State.openReceiveRun_eq]
      refine State.receiveWrites_of_room (fun j hj => ?_) hstill' (.inl hprint) ?_
      · rw [hstart] at hj
        obtain rfl := Option.some.inj (hi.symm.trans hj)
        exact hgap
      · rw [hstart, List.length_append]
        simp only [State.runOpening, carriedEntries, runOpener, hi, Option.any_some, List.length_append] at hfit ⊢
        omega
    intro t
    have ht : t = s.runStarted.written s.runOpening := hopen
    rw [ht, State.written_entries, State.written_holder, State.written_localRun, State.written_matcher,
      State.written_motor, hstart]
    refine ⟨?_, rfl, rfl, rfl, fun hoff => ?_, rfl⟩
    · simp only [State.runOpening, carriedEntries, runOpener, hi, Option.any_some, List.append_assoc]
    · exact congrArg Motor.state (Motor.startEvent_of_off hoff _ _)
  case room =>
    obtain ⟨hwrite, -⟩ := State.write_of_still (e := e) hstill (Mech.admitsAll_of_or he _)
    rw [State.receiveWrite_of_room (State.writeGap_of_none hi (.inl hgap)) hfit, hwrite]
    exact ⟨State.written_entries .., rfl⟩
  case withGap =>
    obtain ⟨hgapped, hstill'⟩ := State.writeGap_of_still hi hstill hdest
    have hentries : s.gapEntries i = [.gap i.pendingGap i.dest] := if_pos ⟨hgap, Nat.le_of_succ_le hfit⟩
    have hleft : s.gapLeft i = 0 := by simp [State.gapLeft, hentries]
    rw [hentries, hleft] at hgapped
    obtain ⟨hwrite, -⟩ := State.write_of_still (e := e) hstill' (Mech.admitsAll_of_or (by rw [hgapped]; exact he) _)
    have hlen : s.writeGap.mech.queue.entries.length + 2 ≤ 2048 := by
      rw [hgapped]
      simpa using hfit
    rw [State.receiveWrite_eq, if_pos hlen, hwrite, hgapped]
    refine ⟨?_, rfl⟩
    rw [State.written_entries]
    simp
  case gapOnly =>
    obtain ⟨hgapped, -⟩ := State.writeGap_of_still hi hstill hdest
    have hentries : s.gapEntries i = [.gap i.pendingGap i.dest] := if_pos ⟨hgap, Nat.le_of_eq hfit⟩
    have hleft : s.gapLeft i = 0 := by simp [State.gapLeft, hentries]
    rw [hentries, hleft] at hgapped
    have hlen : ¬ s.writeGap.mech.queue.entries.length + 2 ≤ 2048 := by
      rw [hgapped]
      simp
      omega
    rw [State.receiveWrite_eq, if_neg hlen, hgapped, State.onIncoming_of_some rfl]
    exact ⟨State.written_entries .., rfl⟩
  case lost =>
    rw [State.receiveWrite, State.writeGap_of_none hi (.inr hfull)]
    refine (if_neg ?_).trans (State.onIncoming_of_some hi _)
    rw [CopyQueue.room_iff _ (by decide)]
    exact Nat.not_le.mpr hfull
  case closes =>
    have hclose := State.closeReceiveRun_of_still hi hopen hstill hdest d
    intro o gap notice t
    have hnotice : s.noticeEntries i d = notice := by
      cases d with
      | none => rfl
      | some x =>
        obtain ⟨-, hx⟩ := hd x rfl
        simp only [State.noticeEntries, inRunNotice_eq _ hx]
        rfl
    have ht : t = _ := hclose
    rw [ht]
    refine ⟨?_, rfl, ?_, rfl, rfl⟩
    · refine (State.written_entries _ _).trans ?_
      rw [State.written_entries, hnotice, ← List.append_assoc]
      rfl
    · refine (State.written_held _ _).trans ?_
      rw [State.written_held, runEnds_gapEntries, runEnds, List.countP_append, ← runEnds, runEnds_noticeEntries]
      rfl

end Sys2Proof.Machine
end

section
/-! What is remembered: L and the peer table at every command (sections 1.4, 4.5). -/

namespace Sys2Proof.Machine

open Sys2Proof

/-! ### The last originator (R17, R22) -/

/-- The listener stands behind a valid header and remembers its originator. -/
def Listener.Named (l : Listener) : Prop :=
  ∃ h, headerOf l.fields = some h ∧ h.valid = true ∧ l.lastOriginator = h.originator

/-- L stays, or is the originator of the valid header taken. -/
def Listener.Follows (l l' : Listener) : Prop := l'.lastOriginator = l.lastOriginator ∨ l'.Named

theorem State.originator_of_remembered {s t : State} (h : t.remembered = s.remembered) :
    t.listener.lastOriginator = s.listener.lastOriginator := congrArg Prod.snd h

theorem State.peers_of_remembered {s t : State} (h : t.remembered = s.remembered) : t.matcher.peers = s.matcher.peers :=
  congrArg Prod.fst h

theorem State.headerTaken_listener (s : State) (h : Header) : (s.headerTaken h).listener.fields = s.listener.fields ∧
    (s.headerTaken h).listener.held = s.listener.held ∧ (s.headerTaken h).listener.state = .text ∧
    (s.headerTaken h).listener.lastOriginator =
      if h.valid then h.originator else s.listener.lastOriginator := by
  unfold State.headerTaken
  dsimp only
  split
  · rw [State.matchHeader_listener]
    exact ⟨rfl, rfl, rfl, rfl⟩
  · rw [State.countError_listener, State.matchHeader_listener]
    exact ⟨rfl, rfl, rfl, rfl⟩

/-- A header character moves L at most with the fifth of a valid header (R17, R22). -/
theorem State.takeField_follows (s : State) (c : RxChar) :
    s.listener.Follows (s.takeField c).listener ∧ (s.takeField c).listener.held = none ∧
      ((s.takeField c).listener.state ≠ .text →
        (s.takeField c).listener.lastOriginator = s.listener.lastOriginator) := by
  unfold State.takeField
  dsimp only
  split
  · rename_i h hh
    obtain ⟨hfields, hheld, hstate, hlast⟩ := State.headerTaken_listener
      (s.onListener fun l => { l.cover c with fields := l.fields ++ [c.code], held := none }) h
    refine ⟨?_, hheld, fun hs => absurd hstate hs⟩
    by_cases hv : h.valid = true
    · rw [if_pos hv] at hlast
      exact .inr ⟨h, by rw [hfields]; exact hh, hv, hlast⟩
    · rw [if_neg hv] at hlast
      exact .inl hlast
  · exact ⟨.inl rfl, rfl, fun _ => rfl⟩

/-- A text character moves neither L nor the header. -/
theorem State.takeText_listener {s : State} (h : s.listener.held = none) (c : RxChar) :
    (s.takeText c).listener.fields = s.listener.fields ∧
      (s.takeText c).listener.lastOriginator = s.listener.lastOriginator := by
  by_cases hc : c.code = 25
  · rw [State.takeText_hold h hc]
    exact ⟨rfl, rfl⟩
  · rw [State.takeText_plain h hc, State.textCharacter, State.matchText_listener]
    exact ⟨rfl, rfl⟩

theorem Listener.Follows.refl (l : Listener) : l.Follows l := .inl rfl

theorem State.takeHeader_follows (s : State) (c : RxChar) : s.listener.Follows (s.takeHeader c).listener := by
  have hcall (h : RxChar) : s.listener.Follows (s.newCall h c).listener :=
    .inl (State.originator_of_remembered ((State.newCall_runs (c := .logKey) h c s).remembered rfl))
  unfold State.takeHeader
  split
  · split
    · exact .inl rfl
    · exact (s.takeField_follows c).1
  · rename_i h _
    split
    · exact hcall h
    · obtain ⟨hfirst, hheld, hshort⟩ := s.takeField_follows h
      dsimp only
      split
      · obtain ⟨hfields, hlast⟩ := State.takeText_listener hheld c
        rcases hfirst with hfirst | ⟨hd, hh, hv, ho⟩
        · exact .inl (hlast.trans hfirst)
        · exact .inr ⟨hd, by rw [hfields]; exact hh, hv, hlast.trans ho⟩
      · rename_i hstate
        rcases (State.takeField_follows (s.takeField h) c).1 with hsecond | hsecond
        · exact .inl (hsecond.trans (hshort hstate))
        · exact .inr hsecond

theorem State.onListener_follows {s : State} {f : Listener → Listener}
    (h : (f s.listener).lastOriginator = s.listener.lastOriginator) : s.listener.Follows (s.onListener f).listener := .inl h

theorem State.checkTaken_originator (s : State) (a b : RxChar) :
    (s.checkTaken a b).listener.lastOriginator = s.listener.lastOriginator := by
  rw [State.checkTaken_eq]
  simp only [Listener.ended]
  cases checkGood s.listener a b <;> cases s.listener.valid <;> rfl

/-- A character in any state moves L at most with a valid header (R22). -/
theorem State.takeChar_follows (s : State) (c : RxChar) : s.listener.Follows (s.takeChar c).listener := by
  have calm {t : State} (h : State.Runs .logKey s t) : s.listener.Follows t.listener :=
    .inl (State.originator_of_remembered (h.remembered rfl))
  unfold State.takeChar
  split
  · exact calm (s.phaseChar_runs c)
  · split
    · exact .inl rfl
    · exact calm (s.takeIdle_runs c)
    · exact s.takeHeader_follows c
    · exact calm (s.takeText_runs c)
    · unfold State.takeCheck
      split
      · exact .inl (s.checkTaken_originator _ _)
      · split
        · exact .inl rfl
        · exact .inl rfl
      · split
        · exact calm (State.newCall_runs _ _ _)
        · exact .inl (s.checkTaken_originator _ _)
    · exact calm (s.phaseChar_runs c)
    · exact calm (s.phaseChar_runs c)

theorem State.listen_follows (s : State) (c : RxChar) : s.listener.Follows (s.listen c).listener := by
  unfold State.listen
  split
  · exact .inl rfl
  · split
    · exact State.takeChar_follows s.countError c
    · exact s.takeChar_follows c

theorem State.spaceEnded_listener (s : State) (date : Option Ticks) : (s.spaceEnded date).listener = s.listener := by
  unfold State.spaceEnded
  split
  · split
    · obtain ⟨m, tb, st, x, l, h⟩ := s.collision_frame
      rw [h]
    · rfl
  · rfl

theorem State.levelChanged_follows (s : State) (date : Ticks) : s.listener.Follows (s.levelChanged date).listener := by
  unfold State.levelChanged
  split
  · exact .inl rfl
  · simp only [State.toMark, State.settle_listener, State.spaceEnded_listener]
    split
    · exact State.listen_follows _ _
    · exact .inl rfl
  · exact .inl rfl

theorem State.stopReading_follows (s : State) (start : Ticks) (paused : Bool) (bits : List Bool) :
    s.listener.Follows (s.stopReading start paused bits).listener := by
  unfold State.stopReading
  split
  · rw [State.settle_listener]
    exact State.listen_follows _ _
  · exact .inl rfl

/-! ### The commands in which the listener takes a character -/

theorem listens_iff {c : Instr} : listens c = true ↔ c = .stopSample ∨ ∃ n date, c = .filteredLevelChange n date := by
  cases c <;> simp [listens]

theorem Acts.of_stopSample {s t : State} (h : Acts .stopSample s t) :
    (∃ m, t = State.settle { s with mech := m }) ∨ ∃ start paused bits, t = s.stopReading start paused bits := by
  cases h with
  | mech m hm => exact .inl ⟨m, rfl⟩
  | keyDown k hk | keyUp k hk => cases hk
  | takeKey act k rest ha hq => cases ha
  | stopReading start paused bits => exact .inr ⟨start, paused, bits, rfl⟩

theorem Acts.of_level {n : Nat} {date : Ticks} {s t : State} (h : Acts (.filteredLevelChange n date) s t) :
    (∃ m, t = State.settle { s with mech := m }) ∨ t = s.runTaken n date ∨ t = (s.runTaken n date).levelChanged date := by
  cases h with
  | mech m hm => exact .inl ⟨m, rfl⟩
  | keyDown k hk | keyUp k hk => cases hk
  | takeKey act k rest ha hq => cases ha
  | shortRun count date => exact .inr (.inl rfl)
  | level count date => exact .inr (.inr rfl)

/-- Settles O4: only the listener's characters move L, and of these only the fifth of a valid header. -/
theorem lastOriginatorIsThatOfAValidHeader : Obligations.LastOriginatorIsThatOfAValidHeader := by
  intro c s t ht hstart hlast
  rcases exec_cases ht with rfl | ⟨hc, -⟩ | ⟨_, _, _, -, -, -, rfl⟩ | ⟨-, u, hact⟩
  · exact absurd rfl hlast
  · exact absurd hc hstart
  · exact absurd rfl hlast
  · by_cases hlistens : listens c = true
    · rcases listens_iff.mp hlistens with rfl | ⟨n, d, rfl⟩
      · refine ⟨.inl rfl, ?_⟩
        rcases hact.of_stopSample with ⟨m, rfl⟩ | ⟨start, paused, bits, rfl⟩
        · exact absurd rfl hlast
        · exact (State.stopReading_follows _ _ _ _).resolve_left hlast
      · refine ⟨.inr ⟨n, d, rfl⟩, ?_⟩
        rcases hact.of_level with ⟨m, rfl⟩ | rfl | rfl
        · exact absurd rfl hlast
        · exact absurd rfl hlast
        · exact (State.levelChanged_follows _ _).resolve_left hlast
    · exact absurd (State.originator_of_remembered (hact.leaves.remembered (by simpa using hlistens))) hlast

end Sys2Proof.Machine
end

section
/-! The peer table at every command (sections 1.2, 4.5). -/

namespace Sys2Proof.Machine

open Sys2Proof

/-! ### What leaves the peer table -/

theorem State.peers_of_calm {s t : State} (h : State.Runs .logKey s t) : t.matcher.peers = s.matcher.peers :=
  State.peers_of_remembered (h.remembered rfl)

theorem State.headerTaken_peers (s : State) (h : Header) : (s.headerTaken h).matcher.peers = s.matcher.peers := by
  unfold State.headerTaken
  dsimp only
  split
  · exact State.peers_of_calm (s := State.onListener s _) (State.matchHeader_runs _ _ _)
  · exact State.peers_of_calm (s := State.onListener s _) ((State.matchHeader_runs _ _ _).trans (State.countError_runs _))

theorem State.takeField_peers (s : State) (c : RxChar) : (s.takeField c).matcher.peers = s.matcher.peers := by
  unfold State.takeField
  dsimp only
  split
  · exact State.headerTaken_peers _ _
  · rfl

theorem State.takeHeader_peers (s : State) (c : RxChar) : (s.takeHeader c).matcher.peers = s.matcher.peers := by
  unfold State.takeHeader
  split
  · split
    · rfl
    · exact s.takeField_peers c
  · split
    · exact State.peers_of_calm (State.newCall_runs _ _ _)
    · dsimp only
      split
      · exact (State.peers_of_calm (State.takeText_runs _ _)).trans (s.takeField_peers _)
      · exact (State.takeField_peers _ _).trans (s.takeField_peers _)

/-! ### The good end of an accepted message (R9, R78) -/

theorem State.response_of_accepted (s : State) {i : Incoming} (hi : i.disposition = .accepted) :
    s.response i true = 1 ∨ s.response i true = 2 ∨ s.response i true = 4 := by
  simp only [State.response, hi, Bool.not_true, Bool.false_eq_true, if_false]
  split
  · exact .inr (.inr rfl)
  · split
    · exact .inl rfl
    · exact .inr (.inl rfl)

/-- The peer table with the entry that an accepted message leaves (R78). -/
def State.Remembered (s : State) (peers : Vector (Option PeerEntry) 31) : Prop :=
  ∃ i e, s.matcher.incoming = some i ∧ i.disposition = .accepted ∧ e.seq = i.header.seq ∧
    (e.response = 1 ∨ e.response = 2 ∨ e.response = 4) ∧
    peers = s.matcher.peers.setIfInBounds i.header.originator.val (some e)

theorem State.matchEnd_peers (s : State) (good : Bool) (ph : Phase)
    (h : (s.matchEnd good ph).matcher.peers ≠ s.matcher.peers) :
    good = true ∧ s.Remembered (s.matchEnd good ph).matcher.peers := by
  by_cases hs : s.matcher.state = .called
  · cases hi : s.matcher.incoming with
    | none => exact absurd (by simp only [State.matchEnd, hs, hi]) h
    | some i =>
      rw [State.matchEnd_of_called hs hi, State.endCalled_eq hi] at h ⊢
      dsimp only at h ⊢
      rw [State.peersAtEnd] at h ⊢
      by_cases hgood : i.disposition = .accepted ∧ good = true
      · obtain ⟨hd, rfl⟩ := hgood
        rw [if_pos ⟨hd, rfl⟩]
        exact ⟨rfl, i, _, hi, hd, rfl, s.response_of_accepted hd, rfl⟩
      · rw [if_neg hgood] at h
        exact absurd rfl h
  · rw [State.matchEnd_of_not_called hs] at h
    exact absurd rfl h

/-- The second check character `c` behind `a` ends an undamaged message whose sum is 1023, of which the table takes the
entry (R9, R19, R78). -/
structure State.GoodEnd (s : State) (c : RxChar) (t : State) : Prop where
  undamaged : c.damaged = false
  state : s.listener.state = .check
  first : ∃ a, (s.listener.check = some a ∨ s.listener.check = none ∧ s.listener.held = some a) ∧ a.damaged = false
  message : s.listener.damaged = false
  pair : s.listener.pairDamaged = false
  sum : t.listener.acc = 1023
  remembered : s.Remembered t.matcher.peers

theorem State.checkTaken_peers {s : State} {a c : RxChar}
    (h : (s.checkTaken a c).matcher.peers ≠ s.matcher.peers) : a.damaged = false ∧ c.damaged = false ∧
      s.listener.damaged = false ∧ s.listener.pairDamaged = false ∧ (s.checkTaken a c).listener.acc = 1023 ∧
      s.Remembered (s.checkTaken a c).matcher.peers := by
  have hpeers : (s.checkTaken a c).matcher.peers = ((s.withListener (s.listener.checked a c)).matchEnd
      (checkGood s.listener a c && !s.listener.pairDamaged) (phaseBehind s.listener c)).matcher.peers := by
    rw [State.checkTaken_eq]
  have hacc : (s.checkTaken a c).listener.acc = addSymbol s.listener.acc (32 * a.code.val + c.code.val) := by
    rw [State.checkTaken_eq]
    simp only [Listener.ended]
    cases checkGood s.listener a c <;> cases s.listener.valid <;> rfl
  rw [hpeers] at h ⊢
  obtain ⟨hgood, hrem⟩ := State.matchEnd_peers _ _ _ h
  rw [Bool.and_eq_true, checkGood_eq, decide_eq_true_eq] at hgood
  obtain ⟨⟨hsum, hl, ha, hc⟩, hpair⟩ := hgood
  exact ⟨ha, hc, hl, by simpa using hpair, hacc.trans hsum, hrem⟩

/-- Of the listener's characters only a second check character of such a message moves the peer table. -/
theorem State.takeChar_peers {s : State} {c : RxChar} (h : (s.takeChar c).matcher.peers ≠ s.matcher.peers) :
    s.GoodEnd c (s.takeChar c) := by
  by_cases hlate : s.listener.isLate c = true
  · rw [State.takeChar_late hlate] at h
    exact absurd (State.peers_of_calm (s.phaseChar_runs c)) h
  · cases hs : s.listener.state with
    | quietWait => exact absurd (by simp only [State.takeChar, if_neg hlate, hs]) h
    | idle =>
      rw [State.takeChar_idle hs (by simpa using hlate)] at h
      exact absurd (State.peers_of_calm (s.takeIdle_runs c)) h
    | header =>
      rw [State.takeChar_header hs] at h
      exact absurd (s.takeHeader_peers c) h
    | text =>
      rw [State.takeChar_text hs] at h
      exact absurd (State.peers_of_calm (s.takeText_runs c)) h
    | slottedAnswers =>
      rw [State.takeChar_phase (.inl hs)] at h
      exact absurd (State.peers_of_calm (s.phaseChar_runs c)) h
    | freeAnswer =>
      rw [State.takeChar_phase (.inr hs)] at h
      exact absurd (State.peers_of_calm (s.phaseChar_runs c)) h
    | check =>
      rw [State.takeChar_check hs] at h ⊢
      cases hk : s.listener.check with
      | some a =>
        rw [State.takeCheck_second hk] at h ⊢
        obtain ⟨ha, hc, hl, hp, hsum, hrem⟩ := State.checkTaken_peers h
        exact ⟨hc, hs, ⟨a, .inl hk, ha⟩, hl, hp, hsum, hrem⟩
      | none =>
        cases hh : s.listener.held with
        | none =>
          refine absurd ?_ h
          simp only [State.takeCheck, hk, hh]
          split <;> rfl
        | some a =>
          by_cases h1 : c.code = 1
          · rw [State.takeCheck_call hk hh h1] at h
            exact absurd (State.peers_of_calm (State.newCall_runs _ _ _)) h
          · rw [State.takeCheck_value hk hh h1] at h ⊢
            obtain ⟨ha, hc, hl, hp, hsum, hrem⟩ := State.checkTaken_peers h
            exact ⟨hc, hs, ⟨a, .inr ⟨hk, hh⟩, ha⟩, hl, hp, hsum, hrem⟩

theorem State.listen_peers {s : State} {c : RxChar} (h : (s.listen c).matcher.peers ≠ s.matcher.peers) :
    s.GoodEnd c (s.listen c) := by
  by_cases hs : s.listener.state = .quietWait
  · rw [State.listen_quietWait hs] at h
    exact absurd rfl h
  · cases hd : c.damaged with
    | true =>
      have hlisten : s.listen c = s.countError.takeChar c := by simp [State.listen, hs, hd]
      rw [hlisten] at h
      exact absurd (State.takeChar_peers (s := s.countError) h).undamaged (by simp [hd])
    | false =>
      have hlisten : s.listen c = s.takeChar c := by simp [State.listen, hs, hd]
      rw [hlisten] at h ⊢
      exact State.takeChar_peers h

/-- A change of the level releases a damaged character at most, and leaves the peer table. -/
theorem State.levelChanged_peers (s : State) (date : Ticks) :
    (s.levelChanged date).matcher.peers = s.matcher.peers := by
  unfold State.levelChanged
  split
  · rfl
  · simp only [State.toMark, State.settle_matcher]
    refine (State.peers_of_calm (State.spaceEnded_runs _ _)).trans ?_
    split
    · by_contra h
      exact absurd (State.listen_peers h).undamaged (by simp)
    · rfl
  · rfl

theorem State.spaceEnded_matcher (s : State) (date : Option Ticks) : (s.spaceEnded date).matcher = s.matcher := by
  unfold State.spaceEnded
  split
  · split
    · obtain ⟨m, tb, st, x, l, h⟩ := s.collision_frame
      rw [h]
    · rfl
  · rfl

/-- Settles O6: only a stop sample at mark hands on an undamaged character, and of these only a second check character
ends a message. -/
theorem peerEntriesComeOnlyFromAcceptedMessages : Obligations.PeerEntriesComeOnlyFromAcceptedMessages := by
  intro c s t ht hstart hpeers
  rcases exec_cases ht with rfl | ⟨hc, -⟩ | ⟨_, _, _, -, -, -, rfl⟩ | ⟨-, u, hact⟩
  · exact absurd rfl hpeers
  · exact absurd hc hstart
  · exact absurd rfl hpeers
  · by_cases hlistens : listens c = true
    · rcases listens_iff.mp hlistens with rfl | ⟨n, d, rfl⟩
      · rcases hact.of_stopSample with ⟨m, rfl⟩ | ⟨start, paused, bits, rfl⟩
        · exact absurd rfl hpeers
        · by_cases hmark : s.receiver.level = some .mark
          · rw [State.stopReading, if_pos (by exact hmark), State.settle_matcher] at hpeers
            rw [State.stopReading, if_pos (by exact hmark), State.settle_matcher, State.settle_listener]
            obtain ⟨-, hstate, hfirst, hl, hp, hsum, hrem⟩ := State.listen_peers (by exact hpeers)
            exact ⟨rfl, hstate, hfirst, hl, hp, hmark, hsum, hrem⟩
          · rw [State.stopReading, if_neg (by exact hmark)] at hpeers
            exact absurd rfl hpeers
      · rcases hact.of_level with ⟨m, rfl⟩ | rfl | rfl
        · exact absurd rfl hpeers
        · exact absurd rfl hpeers
        · exact absurd (State.levelChanged_peers _ _) hpeers
    · exact absurd (State.peers_of_remembered (hact.leaves.remembered (by simpa using hlistens))) hpeers

end Sys2Proof.Machine
end

section
/-! The books: what the tables, the log, the listener's figures and the matcher's state go through (sections 1.4, 3.1,
8.1, 8.2, 10.1). -/

namespace Sys2Proof.Machine

open Sys2Proof

/-! ### The books and their moves -/

/-- What the bounds of the tables, the log and the listener speak of. -/
structure Books where
  keys : List QueuedKey
  store : Store
  table : List OutRecord
  log : Log
  errors : Nat
  degraded : Bool
  acc : Nat
  matcher : MatcherState
  /-- the log record of the incoming message -/
  incoming : Option Nat
  answers : Bool
  /-- the keyer is held for ANSWER -/
  keying : Bool

def State.books (s : State) : Books where
  keys := s.keyboard.queue
  store := s.store
  table := s.table
  log := s.log
  errors := s.listener.errors
  degraded := s.listener.degraded
  acc := s.listener.acc
  matcher := s.matcher.state
  incoming := s.matcher.incoming.map Incoming.logNumber
  answers := s.matcher.answer.isSome
  keying := s.keyer.holder == .answer

/-- The call matcher's state, its records and the keyer's holder agree (R66, R84). -/
def Books.Agrees (b : Books) : Prop :=
  (b.matcher = .called ↔ b.incoming.isSome = true) ∧ (b.answers = true ↔ b.matcher = .due ∨ b.matcher = .keying) ∧
    (b.keying = true ↔ b.matcher = .keying)

/-- What of an outgoing record the bounds speak of: whether it is active, whether it is DONE, and its log record. -/
def OutRecord.key (r : OutRecord) : Bool × Bool × Option Nat :=
  (r.isActive, r.isDone, r.message.map Message.logNumber)

/-- One move at the books. -/
inductive Books.Move (b : Books) : Books → Prop where
  | keyTaken (k : QueuedKey) (rest : List QueuedKey) : b.keys = k :: rest → Move b { b with keys := rest }
  | keyQueued (k : QueuedKey) : b.keys.length < 6 → Move b { b with keys := b.keys ++ [k] }
  | keysCleared : Move b { b with keys := [] }
  | counted (threshold : Nat) : Move b { b with
      errors := addUpTo 63 b.errors 1, degraded := b.degraded || decide (threshold < addUpTo 63 b.errors 1) }
  | lowered : Move b { b with errors := b.errors - 1, degraded := b.degraded && b.errors - 1 != 0 }
  | cleared : Move b { b with errors := 0, degraded := false }
  | summed (n : Nat) : (b.acc ≤ 1023 → n ≤ 1023) → Move b { b with acc := n }
  | marked (table : List OutRecord) : table.map OutRecord.key = b.table.map OutRecord.key → Move b { b with table := table }
  | stored (codes : List Code) : codes.length ≤ b.store.free →
      Move b { b with store := { b.store with chars := b.store.chars ++ codes } }
  | text (r : OutRecord) : b.table.length < 8 → r.message = none → Move b { b with table := b.table ++ [r] }
  | called (seq : Code) (body : LogBody) (r : OutRecord) (m : Message) : b.table.length < 8 →
      body = .outgoing none none none [] .none 0 0 → r.body = .message m → m.state = .composing →
      m.logNumber = (b.log.create seq body).2 →
      Move b { b with table := b.table ++ [r], log := (b.log.create seq body).1 }
  | ready (f : Message → Message) : (∀ m, (f m).logNumber = m.logNumber ∧ (f m).state = .ready) →
      Move b { b with table := onLast (OutRecord.withMessage f) b.table }
  | logged (n : Nat) (station kind : Code) (length : Nat) : Move b { b with log := b.log.closeReady n station kind length }
  | discarded (r : OutRecord) (m : Message) (k : Nat) : b.table.getLast? = some r → r.body = .message m →
      Move b { b with
        table := b.table.dropLast
        store := { b.store with chars := b.store.chars.take k }
        log := b.log.finishDiscard m.logNumber }
  | activated : b.table.any OutRecord.isActive = false →
      Move b { b with
        table := onFirst (OutRecord.inState .ready) (OutRecord.withMessage fun m => { m with state := .contending }) b.table }
  | settled (m : Message) (o : OutOutcome) (answers : List AnswerEntry) (content : Content) (collisions retries : Nat) :
      (b.table.find? OutRecord.isActive).bind OutRecord.message = some m →
      Move b { b with
        table := onFirst OutRecord.isActive (OutRecord.withMessage fun m => { m with state := .done o, content := content })
          b.table
        log := b.log.finishOut m.logNumber o answers content collisions retries }
  | givenBack (k n : Nat) : (∀ r ∈ b.table.take k, r.finished = true) →
      Move b { b with
        table := b.table.drop k
        store := { base := (b.store.base + n) % 1024, chars := b.store.chars.drop n } }
  | taken (seq peer kind : Code) : b.matcher = .idle →
      Move b { b with
        log := (b.log.create seq (.incoming peer kind none 0)).1
        matcher := .called, incoming := some (b.log.create seq (.incoming peer kind none 0)).2, answers := false }
  | ended (n : Nat) (o : InOutcome) (chars lost : Nat) (st : MatcherState) (answers : Bool) : b.incoming = some n →
      b.matcher = .called → (st = .due ∧ answers = true ∨ st = .idle ∧ answers = false) →
      Move b { b with log := b.log.finishIn n o chars lost, matcher := st, incoming := none, answers := answers }
  | answering (st : MatcherState) (answers keying : Bool) :
      (b.Agrees → Books.Agrees { b with matcher := st, answers := answers, keying := keying }) →
      Move b { b with matcher := st, answers := answers, keying := keying }

/-- Every move keeps the agreement of the call matcher. -/
theorem Books.Move.agrees {b b' : Books} (h : b.Move b') (ha : b.Agrees) : b'.Agrees := by
  cases h with
  | taken seq peer kind hidle =>
    obtain ⟨-, -, hkey⟩ := ha
    exact ⟨by simp, by simp, hkey.trans (by simp [hidle])⟩
  | ended n o chars lost st answers hi hstate hst =>
    obtain ⟨-, -, hkey⟩ := ha
    have hno : b.keying = false := by simpa [hstate] using hkey
    rcases hst with ⟨rfl, rfl⟩ | ⟨rfl, rfl⟩ <;> exact ⟨by simp, by simp, by simp [hno]⟩
  | answering st answers keying hnew => exact hnew ha
  | _ => exact ha

/-- What the write port, the room in the queue and the incoming record have to agree on (R65, R79, R89, R90, R92). -/
structure PortFits (q : CopyQueue) (x : Matcher) : Prop where
  room : q.entries.length + (if q.runOpen then 1 else 0) ≤ 2048
  localHeld : q.holder = .localRun ↔ q.localRun = .opened
  receiveHeld : q.holder = .receive ↔ x.incoming.any Incoming.runOpen = true
  counts : x.countsBounded

def State.Ported (s : State) : Prop := PortFits s.mech.queue s.matcher

/-- The books of `t` come from those of `s` by such moves, and the port fits at `t` where it does at `s`. -/
structure State.Turns (s t : State) : Prop where
  books : Relation.ReflTransGen Books.Move s.books t.books
  ported : s.books.Agrees → s.Ported → t.Ported

theorem books_agrees {b b' : Books} (h : Relation.ReflTransGen Books.Move b b') (ha : b.Agrees) : b'.Agrees := by
  induction h with
  | refl => exact ha
  | tail _ hmove ih => exact hmove.agrees ih

namespace State.Turns

theorem of_eq {s t : State} (h : t.books = s.books)
    (hp : s.books.Agrees → s.Ported → t.Ported) : State.Turns s t := ⟨by rw [h], hp⟩

theorem refl (s : State) : State.Turns s s := of_eq rfl fun _ h => h

theorem trans {s t u : State} (h : State.Turns s t) (g : State.Turns t u) : State.Turns s u :=
  ⟨h.books.trans g.books, fun ha hs => g.ported (books_agrees h.books ha) (h.ported ha hs)⟩

theorem move {s t : State} (h : Books.Move s.books t.books)
    (hp : s.books.Agrees → s.Ported → t.Ported) : State.Turns s t := ⟨.single h, hp⟩

theorem after {s t u : State} (g : State.Turns t u) (h : t.books = s.books)
    (hp : s.books.Agrees → s.Ported → t.Ported) : State.Turns s u := (of_eq h hp).trans g

theorem before {s t u : State} (g : State.Turns s t) (h : u.books = t.books)
    (hp : t.books.Agrees → t.Ported → u.Ported) : State.Turns s u := g.trans (of_eq h hp)

end State.Turns

open State (Turns)

theorem OnlyMech.books_eq {s t : State} (h : OnlyMech s t) : t.books = s.books := by
  obtain ⟨m, rfl⟩ := h
  rfl

theorem OnlyMech.turns {s t : State} (h : OnlyMech s t) (hp : s.books.Agrees → s.Ported → t.Ported) : State.Turns s t :=
  .of_eq h.books_eq hp

/-! ### The port at the queue's operations -/

namespace PortFits

variable {q q' : CopyQueue} {x : Matcher}

/-- A queue no longer than before, its port as it was. -/
theorem shorter (h : PortFits q x) (hlen : q'.entries.length ≤ q.entries.length) (hh : q'.holder = q.holder)
    (hl : q'.localRun = q.localRun) : PortFits q' x where
  room := by
    rw [CopyQueue.runOpen, hh]
    exact (Nat.add_le_add_right hlen _).trans h.room
  localHeld := by rw [hh, hl]; exact h.localHeld
  receiveHeld := by rw [hh]; exact h.receiveHeld
  counts := h.counts

/-- The matcher with its incoming record's run as it was. -/
theorem matcher {y : Matcher} (h : PortFits q x)
    (hr : y.incoming.any Incoming.runOpen = x.incoming.any Incoming.runOpen) (hc : y.countsBounded) : PortFits q y :=
  ⟨h.room, h.localHeld, by rw [hr]; exact h.receiveHeld, hc⟩

end PortFits

theorem State.settle_ported {s : State} (h : s.Ported) : s.settle.Ported := by
  obtain ⟨hport, hlen⟩ := s.mech.settle_frame s.loader.params s.now
  exact PortFits.shorter h hlen (congrArg Prod.fst hport) (congrArg (fun x => x.2.1) hport)

theorem State.write_facts (s : State) (e : Entry) :
    (s.write e).mech.queue.entries.length ≤ s.mech.queue.entries.length + 1 ∧
      (s.write e).mech.queue.holder = s.mech.queue.holder ∧ (s.write e).mech.queue.localRun = s.mech.queue.localRun := by
  have hport := s.mech.write_port s.loader.params s.now e
  exact ⟨Mech.write_length_le .., congrArg Prod.fst hport, congrArg (fun x => x.2.1) hport⟩

theorem State.writeAll_facts (s : State) (es : List Entry) :
    (s.writeAll es).mech.queue.entries.length ≤ s.mech.queue.entries.length + es.length ∧
      (s.writeAll es).mech.queue.holder = s.mech.queue.holder ∧
      (s.writeAll es).mech.queue.localRun = s.mech.queue.localRun := by
  have hport := s.mech.writeAll_port s.loader.params s.now es
  exact ⟨Mech.writeAll_length_le .., congrArg Prod.fst hport, congrArg (fun x => x.2.1) hport⟩

/-- Entries that leave the entry of an open run free may be written (R89). -/
theorem State.writeAll_ported {s : State} {es : List Entry} (h : s.Ported) (hroom : es.length + 1 ≤ s.mech.queue.free) :
    (s.writeAll es).Ported := by
  obtain ⟨hlen, hh, hl⟩ := s.writeAll_facts es
  refine ⟨?_, by rw [hh, hl]; exact h.localHeld, by rw [hh]; exact h.receiveHeld, h.counts⟩
  have hfree : es.length + 1 ≤ 2048 - s.mech.queue.entries.length := hroom
  split <;> omega

theorem State.write_ported {s : State} {e : Entry} (h : s.Ported) (hroom : 2 ≤ s.mech.queue.free) : (s.write e).Ported :=
  State.writeAll_ported (es := [e]) h hroom

theorem State.post_ported {s : State} (r : Request) (h : s.Ported) : (s.post r).Ported := by
  have hpost : (s.mech.queue.post r).entries = s.mech.queue.entries ∧ (s.mech.queue.post r).holder = s.mech.queue.holder ∧
      (s.mech.queue.post r).localRun = s.mech.queue.localRun := by
    unfold CopyQueue.post
    split <;> exact ⟨rfl, rfl, rfl⟩
  obtain ⟨he, hh, hl⟩ := hpost
  exact PortFits.shorter h (by rw [show (s.post r).mech.queue = s.mech.queue.post r from rfl, he]) hh hl

/-- The RUN-END of an open local run goes into its kept entry, and the port is free (R89, R93). -/
theorem State.runEnd_ported {s : State} (h : s.Ported) (hl : s.mech.queue.localRun = .opened) {q : CopyQueue}
    (he : q.entries = (s.write .runEnd).mech.queue.entries) (hh : q.holder = .none) (hno : q.localRun ≠ .opened) :
    PortFits q s.matcher := by
  have hholder : s.mech.queue.holder = .localRun := h.localHeld.mpr hl
  obtain ⟨hlen, -, -⟩ := s.write_facts .runEnd
  have hroom := h.room
  rw [CopyQueue.runOpen, hholder] at hroom
  refine ⟨?_, by simp [hh, hno], ?_, h.counts⟩
  · rw [CopyQueue.runOpen, hh, he]
    exact hlen.trans hroom
  · rw [hh, ← h.receiveHeld, hholder]
    simp

theorem State.closeLocalRun_ported {s : State} (h : s.Ported) : s.closeLocalRun.Ported := by
  unfold State.closeLocalRun
  split
  · exact h
  · rename_i hl
    exact State.runEnd_ported h hl rfl rfl nofun
  · rename_i hl
    have hno : s.mech.queue.holder ≠ .localRun := fun hh => by
      rw [h.localHeld.mp hh] at hl
      cases hl
    exact ⟨h.room, ⟨fun hh => absurd hh hno, nofun⟩, h.receiveHeld, h.counts⟩

theorem State.closeLocalRun_turns (s : State) : Turns s s.closeLocalRun :=
  s.closeLocalRun_only.turns fun _ h => State.closeLocalRun_ported h

theorem State.suspendLocalRun_ported {s : State} (h : s.Ported) : s.suspendLocalRun.Ported := by
  unfold State.suspendLocalRun
  split
  · rename_i hl
    exact State.runEnd_ported h hl rfl rfl nofun
  · exact h

theorem State.settle_turns (s : State) : Turns s s.settle := .of_eq rfl fun _ h => State.settle_ported h

theorem State.post_turns (s : State) (r : Request) : Turns s (s.post r) := .of_eq rfl fun _ h => State.post_ported r h

/-- A local run is opened where its opener, a character and its RUN-END fit (R92). -/
theorem State.offer_ported {s t : State} {c : Code} (hs : s.Ported) (h : s.offer c = some t) : t.Ported := by
  have hport (hr : s.mech.queue.refusesCopier = false) : s.mech.queue.holder ≠ .receive := by
    intro hh
    rw [CopyQueue.refusesCopier, hh] at hr
    simp at hr
  unfold State.offer at h
  dsimp only at h
  split at h
  · cases h
  · rename_i hr
    split at h
    · split at h
      · cases h
        exact State.write_ported hs ‹_›
      · cases h
    · split at h
      · rename_i hroom
        cases h
        have hfree : _ + 3 ≤ 2048 - s.mech.queue.entries.length := hroom
        have hreceive := hport (by simpa using hr)
        refine State.writeAll_ported ⟨?_, ⟨fun _ => rfl, fun _ => rfl⟩, ⟨nofun, ?_⟩, hs.counts⟩ ?_
        · show s.mech.queue.entries.length + (if _ then 1 else 0) ≤ 2048
          split <;> omega
        · exact fun hx => absurd (hs.receiveHeld.mpr hx) hreceive
        · show _ ≤ 2048 - s.mech.queue.entries.length
          simp only [List.length_append, List.length_singleton]
          omega
      · cases h

/-! ### Marks in the table -/

theorem onFirst_map_of {α β : Type} {q : α → Bool} {f : α → α} {g : α → β} (l : List α)
    (h : ∀ a, q a = true → g (f a) = g a) : (onFirst q f l).map g = l.map g := by
  induction l with
  | nil => rfl
  | cons a rest ih =>
    by_cases hq : q a = true
    · simp [onFirst, hq, h a hq]
    · simp [onFirst, hq, ih]

theorem onLast_map_of {α β : Type} {f : α → α} {g : α → β} (l : List α) (h : ∀ a, l.getLast? = some a → g (f a) = g a) :
    (onLast f l).map g = l.map g := by
  rcases l.eq_nil_or_concat' with rfl | ⟨l, a, rfl⟩
  · rfl
  · rw [onLast_concat, List.map_append, List.map_append]
    simp [h a (by simp)]

theorem OutRecord.key_withMessage {r : OutRecord} {f : Message → Message}
    (h : ∀ m, (f m).logNumber = m.logNumber ∧ (f m).state = m.state) : (r.withMessage f).key = r.key := by
  unfold OutRecord.withMessage
  cases hb : r.body with
  | text o => rfl
  | message m => simp [OutRecord.key, OutRecord.isActive, OutRecord.inState, OutRecord.isDone, OutRecord.message, hb, h m]

theorem OutRecord.key_withMessage_active {r : OutRecord} {f : Message → Message} (hr : r.isActive = true)
    (h : ∀ m, (f m).logNumber = m.logNumber ∧
      ((f m).state = .contending ∨ (f m).state = .sending ∨ (f m).state = .answering)) : (r.withMessage f).key = r.key := by
  unfold OutRecord.withMessage
  cases hb : r.body with
  | text o => rfl
  | message m =>
    obtain ⟨hnum, hstate⟩ := h m
    have hdone : r.isDone = false := by
      rw [OutRecord.isDone, hb]
      rw [OutRecord.isActive, OutRecord.inState, OutRecord.inState, OutRecord.inState, hb] at hr
      cases hs : m.state with
      | done o => simp [hs] at hr
      | _ => simp [hs]
    have hmsg : r.message = some m := by rw [OutRecord.message, hb]
    rw [OutRecord.key, OutRecord.key, hr, hdone, hmsg]
    rcases hstate with hs | hs | hs <;>
      simp [OutRecord.isActive, OutRecord.inState, OutRecord.isDone, OutRecord.message, hs, hnum]

theorem State.onActive_turns {s : State} {f : Message → Message}
    (h : ∀ r : OutRecord, r.isActive = true → (r.withMessage f).key = r.key) :
    Turns s (s.onActive f) := .move (.marked _ (onFirst_map_of _ h)) fun _ h => h

/-- The newest record's text closed, its message edited, its length: only marks (R143). -/
theorem State.onComposing_turns {s : State} {f : Message → Message}
    (h : ∀ m, (f m).logNumber = m.logNumber ∧ (f m).state = m.state) : Turns s (s.onComposing f) :=
  .move (.marked _ (onLast_map_of _ fun _ _ => OutRecord.key_withMessage h)) fun _ h => h

end Sys2Proof.Machine
end

section
/-! The books at the transmitter, the copier and the composer. -/

namespace Sys2Proof.Machine

open Sys2Proof
open State (Turns)

/-! ### The outgoing table -/

theorem State.giveBack_turns (s : State) : Turns s s.giveBack := by
  refine .move (.givenBack (s.table.takeWhile OutRecord.finished).length
    ((s.table.takeWhile OutRecord.finished).map OutRecord.length).sum fun r hr => ?_) fun _ h => h
  have hprefix : s.table.take (s.table.takeWhile OutRecord.finished).length = s.table.takeWhile OutRecord.finished :=
    List.prefix_iff_eq_take.mp (List.takeWhile_prefix _) |>.symm
  exact List.mem_takeWhile_imp (hprefix ▸ hr)

theorem State.activate_turns (s : State) : Turns s s.activate := by
  unfold State.activate
  split
  · exact .refl s
  · exact .move (.activated (Bool.eq_false_iff.mpr ‹¬ _›)) fun _ h => h

theorem State.finishMessage_turns (s : State) (o : OutOutcome) (content : Content) :
    Turns s (s.finishMessage o content) := by
  unfold State.finishMessage
  split
  · exact .refl s
  · rename_i m hm
    dsimp only
    refine .trans ?_ (State.giveBack_turns _)
    refine .trans ?_ (State.activate_turns _)
    refine .trans ?_ (State.post_turns _ _)
    exact .move (.settled m o m.answers content m.collisions m.retries hm) fun _ h => h

theorem State.contendAgain_turns (s : State) {f : Message → Message} (h : ∀ m, (f m).logNumber = m.logNumber) :
    Turns s (s.contendAgain f) := by
  refine .before (State.onActive_turns (f := fun m => { f m with state := .contending }) fun r hr => ?_) rfl fun _ h => h
  exact OutRecord.key_withMessage_active hr fun m => ⟨h m, .inl rfl⟩

theorem State.collision_turns (s : State) : Turns s s.collision := by
  unfold State.collision
  split
  · exact .refl s
  · split
    · exact s.finishMessage_turns _ _
    · exact s.contendAgain_turns fun _ => rfl

theorem State.interrupt_turns (s : State) : Turns s s.interrupt := by
  unfold State.interrupt
  split
  · exact s.finishMessage_turns _ _
  · exact .refl s

theorem State.phaseJudged_turns (s : State) : Turns s s.phaseJudged := by
  unfold State.phaseJudged
  split
  · split
    · have hmerged (entries : List AnswerEntry) :
          Turns s (s.onActive fun m => { m with answers := mergeEntries entries m.answers }) :=
        State.onActive_turns fun r _ => OutRecord.key_withMessage fun m => ⟨rfl, rfl⟩
      dsimp only
      split
      · exact (hmerged _).trans (State.finishMessage_turns _ _ _)
      · exact (hmerged _).trans (State.contendAgain_turns _ fun _ => rfl)
    · split <;> exact .of_eq rfl fun _ h => h
  · exact .refl s

theorem State.phaseReported_turns (s : State) (ph : Phase) : Turns s (s.phaseReported ph) := by
  unfold State.phaseReported
  split
  · split <;> exact .of_eq rfl fun _ h => h
  · exact .refl s

theorem State.phaseChar_turns (s : State) (x : RxChar) : Turns s (s.phaseChar x) := by
  unfold State.phaseChar
  split
  · split <;> exact .of_eq rfl fun _ h => h
  · exact .refl s

theorem State.messageKeyed_turns (s : State) : Turns s s.messageKeyed := by
  unfold State.messageKeyed
  split
  · exact .refl s
  · split
    · exact s.finishMessage_turns _ _
    · split
      · dsimp only
        have hanswering : Turns s (s.onActive fun m => { m with state := .answering }) :=
          State.onActive_turns fun r hr => OutRecord.key_withMessage_active hr fun m => ⟨rfl, .inr (.inr rfl)⟩
        split
        · exact hanswering.trans (State.phaseJudged_turns _)
        · exact hanswering
      · exact s.collision_turns

theorem State.messageMismatch_turns (s : State) (t : Ticks) : Turns s (s.messageMismatch t) := by
  unfold State.messageMismatch
  split
  · exact .refl s
  · split
    · exact s.finishMessage_turns _ _
    · exact .of_eq rfl fun _ h => h

theorem State.spaceEnded_turns (s : State) (date : Option Ticks) : Turns s (s.spaceEnded date) := by
  unfold State.spaceEnded
  split
  · split
    · exact s.collision_turns
    · exact .refl s
  · exact .refl s

theorem State.cancelRequest_turns (s : State) : Turns s s.cancelRequest := by
  unfold State.cancelRequest
  split
  · exact .refl s
  · split
    · exact s.finishMessage_turns _ _
    · split
      · exact .refl s
      · split
        · exact s.finishMessage_turns _ _
        · split <;> exact .of_eq rfl fun _ h => h
    · exact .refl s

/-! ### The local copier -/

theorem State.copyCompleted_turns (s : State) : Turns s s.copyCompleted := by
  refine .trans ?_ (State.giveBack_turns _)
  refine s.closeLocalRun_turns.trans (.move ?_ fun _ h => h)
  rw [State.closeLocalRun_eq]
  exact .marked _ (onFirst_map_of _ fun _ _ => rfl)

theorem State.completeCopies_turns (n : Nat) (s : State) : Turns s (s.completeCopies n) := by
  induction n generalizing s with
  | zero => exact .refl s
  | succ n ih =>
    by_cases hdone : ∃ r, s.copying = some r ∧ r.closed = true ∧ r.progress = r.length
    · obtain ⟨r, hr, hc, hp⟩ := hdone
      rw [State.completeCopies_of_done hr hc hp]
      exact s.copyCompleted_turns.trans (ih _)
    · rw [State.completeCopies_of_waiting fun r hr => ?_]
      · exact .refl s
      · by_cases hc : r.closed = true
        · exact .inr fun hp => hdone ⟨r, hr, hc, hp⟩
        · exact .inl (by simpa using hc)

theorem State.copierLooks_turns (s : State) : Turns s s.copierLooks := s.completeCopies_turns _

theorem State.ring_turns (s : State) : Turns s s.ring := .of_eq rfl fun _ h => h

theorem State.copierWrites_turns (s : State) : Turns s s.copierWrites := by
  unfold State.copierWrites
  split
  · exact .refl s
  · split
    · exact .refl s
    · split
      · exact .of_eq rfl fun _ h => PortFits.shorter h le_rfl rfl rfl
      · rename_i t ht
        have hoffered : Turns s t := (State.offer_only ht).turns fun _ h => State.offer_ported h ht
        refine .trans ?_ (State.settle_turns _)
        refine .trans ?_ (State.copierLooks_turns _)
        exact hoffered.trans (.move (.marked _ (onFirst_map_of _ fun _ _ => rfl)) fun _ h => h)

/-! ### The composer -/

theorem State.closeOpenText_turns (s : State) : Turns s s.closeOpenText := by
  by_cases h : s.hasOpenText = true
  · rw [State.closeOpenText_of_open h]
    refine .trans (t := s.textShut) (.move (.marked _ (onLast_map_of _ fun r hr => ?_)) fun _ h => h) (State.copierLooks_turns _)
    obtain ⟨r', hr', hopen⟩ := State.hasOpenText_iff.mp h
    obtain rfl := Option.some.inj (hr'.symm.trans hr)
    cases hb : r'.body with
    | message m => simp [OutRecord.isOpenText, hb] at hopen
    | text o => simp [OutRecord.key, OutRecord.isActive, OutRecord.inState, OutRecord.isDone, OutRecord.message, hb]
  · rw [State.closeOpenText_of_not (by simpa using h)]
    exact .refl s

theorem State.makeRoom_turns (s : State) (n : Nat) : Turns s (s.makeRoom n) := by
  unfold State.makeRoom
  split
  · exact s.closeOpenText_turns
  · exact .refl s

/-- The characters of a key join the store and the newest record where there is room (R142). -/
theorem State.takeAction_turns {s : State} {a : StoreAction} (h : a.chars.length ≤ s.store.free) :
    Turns s (s.takeAction a) := by
  have hstored : Turns s { s with store := { s.store with chars := s.store.chars ++ a.chars } } :=
    .move (.stored a.chars h) fun _ h => h
  refine hstored.trans (.move ?_ fun _ h => h)
  exact .marked _ (onLast_map_of _ fun _ _ => rfl)

theorem State.charInLocal_turns (s : State) (act : Option Case → StoreAction) : Turns s (s.charInLocal act) := by
  unfold State.charInLocal
  dsimp only
  refine (s.makeRoom_turns (act s.composer.sendCase).chars.length).trans ?_
  split
  · split
    · exact State.takeAction_turns ‹_›
    · exact State.ring_turns _
  · split
    · rename_i h
      have hmade : Turns (s.makeRoom (act s.composer.sendCase).chars.length)
          ((s.makeRoom (act s.composer.sendCase).chars.length).makeRecord (.text true)) :=
        .move (.text _ h.1 rfl) fun _ h => h
      exact hmade.trans (State.takeAction_turns h.2)
    · exact State.ring_turns _

theorem State.charInText_turns (s : State) (act : Option Case → StoreAction) : Turns s (s.charInText act) := by
  unfold State.charInText
  split
  · exact State.takeAction_turns ‹_›
  · exact s.ring_turns

theorem State.kindToText_turns (s : State) : Turns s s.kindToText :=
  .before (State.onComposing_turns (f := fun m => { m with kind := 1 }) fun _ => ⟨rfl, rfl⟩) rfl fun _ h => h

theorem State.toLocal_turns (s : State) : Turns s s.toLocal := .of_eq rfl fun _ h => h

theorem State.discardComposing_turns (s : State) : Turns s s.discardComposing := by
  by_cases h : ∃ r m, s.newest = some r ∧ r.body = .message m ∧ m.state = .composing
  · obtain ⟨r, m, hr, hm, hc⟩ := h
    have hgone : Turns s (s.discarded r m) := .move (.discarded r m _ hr hm) fun _ h => h
    rw [State.discardComposing_of_composing hr hm hc]
    split
    · exact hgone.trans (.before (State.closeLocalRun_turns _) rfl fun _ h => h)
    · exact hgone
  · rw [State.discardComposing_of_none fun r m hr hm hc => h ⟨r, m, hr, hm, hc⟩]
    exact .refl s

theorem State.closeReady_turns (s : State) (kind : Code) : Turns s (s.closeReady kind) := by
  unfold State.closeReady
  refine .trans ?_ (State.copierLooks_turns _)
  refine .trans ?_ (State.activate_turns _)
  have hready : Turns s (s.onComposing fun m => { m with kind := kind, state := .ready }) :=
    .move (.ready _ fun _ => ⟨rfl, rfl⟩) fun _ h => h
  refine hready.trans ?_
  split
  · split
    · exact .move (.logged _ _ _ _) fun _ h => h
    · exact .of_eq rfl fun _ h => h
  · exact .of_eq rfl fun _ h => h

theorem State.completeCopies_length (n : Nat) (s : State) : (s.completeCopies n).table.length ≤ s.table.length := by
  induction n generalizing s with
  | zero => exact le_rfl
  | succ n ih =>
    by_cases hdone : ∃ r, s.copying = some r ∧ r.closed = true ∧ r.progress = r.length
    · obtain ⟨r, hr, hc, hp⟩ := hdone
      rw [State.completeCopies_of_done hr hc hp]
      refine (ih _).trans ?_
      simp [State.copyCompleted, State.giveBack]
    · rw [State.completeCopies_of_waiting fun r hr => ?_]
      by_cases hc : r.closed = true
      · exact .inr fun hp => hdone ⟨r, hr, hc, hp⟩
      · exact .inl (by simpa using hc)

theorem State.closeOpenText_length (s : State) : s.closeOpenText.table.length ≤ s.table.length := by
  by_cases h : s.hasOpenText = true
  · rw [State.closeOpenText_of_open h]
    exact (State.completeCopies_length _ _).trans (by simp [State.textShut])
  · rw [State.closeOpenText_of_not (by simpa using h)]

theorem State.callInLocal_turns (s : State) : Turns s s.callInLocal := by
  unfold State.callInLocal
  split
  · exact s.ring_turns
  · rename_i hroom
    have hlen : s.closeOpenText.table.length < 8 :=
      Nat.lt_of_le_of_lt s.closeOpenText_length (Nat.lt_of_not_le hroom)
    exact s.closeOpenText_turns.trans (.move (.called _ _ _ _ hlen rfl rfl rfl rfl) fun _ h => h)

theorem State.addressDigit_turns (s : State) (d : Nat) : Turns s (s.addressDigit d) := by
  unfold State.addressDigit
  split
  · exact .of_eq rfl fun _ h => h
  · dsimp only
    have haddressed (g v : Code) : Turns s (s.onComposing fun m => { m with group := g, station := v }) :=
      State.onComposing_turns fun _ => ⟨rfl, rfl⟩
    split
    · exact .of_eq rfl fun _ h => h
    · split
      · exact .of_eq rfl fun _ h => h
      · exact .before (haddressed _ _) rfl fun _ h => h

theorem State.charKey_turns (s : State) (act : Option Case → StoreAction) : Turns s (s.charKey act) := by
  unfold State.charKey
  split
  · exact s.charInLocal_turns act
  · exact s.ring_turns
  · exact s.kindToText_turns.trans (State.charInText_turns _ act)
  · exact s.charInText_turns act

/-- What the composer does with the key a command takes. -/
theorem keyAction_turns {c : Instr} {act : QueuedKey → State → State} (hc : keyActionOf c = some act)
    (k : QueuedKey) (s : State) : Turns s (act k s) := by
  cases c with
  | dataKey =>
    cases hc
    simp only [State.takeData]
    split
    · simp only [State.dataKeyTaken]
      split
      · split
        · exact s.addressDigit_turns _
        · exact s.ring_turns
      · exact s.charKey_turns _
    · exact .refl s
  | formatKey =>
    cases hc
    simp only [State.takeFormat]
    split
    · exact s.charKey_turns _
    · exact .refl s
  | callKey =>
    cases hc
    simp only [State.callTaken]
    split
    · exact s.callInLocal_turns
    · exact s.ring_turns
    · exact s.kindToText_turns
    · exact .refl s
  | endKey =>
    cases hc
    simp only [State.endTaken]
    split
    · exact .refl s
    · exact s.ring_turns
    · exact s.closeReady_turns _
    · exact s.closeReady_turns _
  | cancelKey =>
    cases hc
    simp only [State.cancelTaken]
    split
    · exact s.cancelRequest_turns
    · exact s.discardComposing_turns.trans (State.toLocal_turns _)
  | enqKey | statusKey =>
    cases hc
    simp only [State.requestTaken]
    split
    · exact .refl s
    · exact s.ring_turns
    · exact s.closeReady_turns _
    · exact .refl s
  | hereIsKey => cases hc; exact s.charKey_turns _
  | bellKey =>
    cases hc
    simp only [State.bellTaken]
    split
    · exact s.ring_turns
    · exact s.ring_turns
    · exact s.kindToText_turns.trans (State.charInText_turns _ _)
    · exact s.charInText_turns _
  | logKey => cases hc; exact s.post_turns .log
  | _ => cases hc

end Sys2Proof.Machine
end

section
/-! The books at the keyboard, the call matcher, the listener and the keyer, and at every command. -/

namespace Sys2Proof.Machine

open Sys2Proof
open State (Turns)

/-! ### The keyboard and the mode switch -/

theorem State.keyGoesDown_turns (s : State) (k : Key) : Turns s (s.keyGoesDown k) := by
  unfold State.keyGoesDown
  dsimp only
  split <;> exact .of_eq rfl fun _ h => h

theorem State.queueKey_turns (s : State) (k : Key) : Turns s (s.queueKey k) := by
  unfold State.queueKey
  split
  · split
    · exact .move (.keyQueued _ ‹_›) fun _ h => h
    · exact s.ring_turns
  · exact .refl s

/-- An answer that the keyer gives up is over (R84). -/
theorem State.answerOver_turns (s : State) : Turns s ({ s with keyer := Keyer.reset } : State).answerOver := by
  unfold State.answerOver
  split
  · rename_i h
    refine .move (.answering .idle false false fun ⟨hcalled, _, _⟩ => ⟨?_, by simp, by simp⟩) fun _ h => h.matcher rfl h.counts
    have hno : ¬ s.books.matcher = .called := by rw [show s.books.matcher = .keying from h]; exact nofun
    simpa using fun hi => hno (hcalled.mpr hi)
  · rename_i h
    refine .move (.answering s.matcher.state s.matcher.answer.isSome false fun ⟨hcalled, hans, _⟩ =>
      ⟨hcalled, hans, ?_⟩) fun _ h => h
    simpa using h

/-- The keyer is free of a holder that is not ANSWER. -/
theorem State.keyer_turns {s : State} {k : Keyer} (h : (k.holder == .answer) = (s.keyer.holder == .answer)) :
    Turns s { s with keyer := k } := .of_eq (by simp only [State.books, h]) fun _ h => h

theorem State.breakDown_turns (s : State) : Turns s s.breakDown := by
  unfold State.breakDown
  split
  · dsimp only
    split
    · rename_i h
      exact (State.keyer_turns (by rw [h]; rfl)).trans (State.interrupt_turns _)
    · rename_i h
      refine .move (.answering .idle false false fun ⟨hcalled, _, hkey⟩ => ⟨?_, by simp, by simp⟩)
        fun _ h => h.matcher rfl h.counts
      have hkeying : s.books.matcher = .keying := hkey.mp (by simp [State.books, h])
      have hno : ¬ s.books.matcher = .called := by rw [hkeying]; exact nofun
      simpa using fun hi => hno (hcalled.mpr hi)
    · rename_i h
      refine State.keyer_turns ?_
      cases hh : s.keyer.holder with
      | answer => exact absurd hh h
      | _ => rfl
  · exact .refl s

theorem State.clearDown_turns (s : State) : Turns s s.clearDown := by
  unfold State.clearDown
  dsimp only
  refine s.discardComposing_turns.trans ?_
  refine .trans (t := { s.discardComposing with keyboard := { s.discardComposing.keyboard with queue := [] } })
    (.move .keysCleared fun _ h => h) (.move .cleared fun _ h => h)

theorem State.routeDown_turns (s : State) (k : Key) : Turns s (s.routeDown k) := by
  unfold State.routeDown
  split
  · exact .refl s
  · exact s.breakDown_turns
  · exact s.clearDown_turns
  · unfold State.tapeFeedDown
    split
    · exact .of_eq rfl fun _ h => h
    · exact .refl s
  · exact s.queueKey_turns _

theorem State.routeUp_turns (s : State) (k : Key) : Turns s (s.routeUp k) := by
  unfold State.routeUp
  split
  · unfold State.breakUp
    split
    · rename_i h
      exact State.keyer_turns (by rw [h]; rfl)
    · exact .refl s
  · exact .of_eq rfl fun _ h => h
  · exact .refl s

theorem State.modeChanged_turns (s : State) (d : Mode) : Turns s (s.modeChanged d) := by
  unfold State.modeChanged
  dsimp only
  have hturned : Turns s (s.onMech fun p now m =>
      { m with motor := ({ m.motor with mode := d } : Motor).restartIdle p now }) := .of_eq rfl fun _ h => h
  split
  · exact hturned
  · refine hturned.trans ((State.discardComposing_turns _).trans ((State.closeOpenText_turns _).trans (.move ?_ fun _ h => h)))
    exact .keysCleared

/-! ### The call matcher -/

/-- The counts of an incoming record stop at their bounds (R65). -/
def Incoming.Bounded (i : Incoming) : Prop := i.pendingGap ≤ 255 ∧ i.lost ≤ 255 ∧ i.chars ≤ 65535

theorem Matcher.countsBounded_iff (x : Matcher) :
    x.countsBounded ↔ x.carriedGap ≤ 255 ∧ ∀ i, x.incoming = some i → i.Bounded := by
  rw [Matcher.countsBounded]
  cases x.incoming <;> simp [Incoming.Bounded, and_assoc]

theorem State.onIncoming_turns (s : State) {f : Incoming → Incoming}
    (h : ∀ i, (f i).logNumber = i.logNumber ∧ (f i).runOpen = i.runOpen) (hb : ∀ i : Incoming, i.Bounded → (f i).Bounded) :
    Turns s (s.onIncoming f) := by
  refine .of_eq ?_ fun _ hp => hp.matcher ?_ ?_
  · simp only [State.books, State.onIncoming, Option.map_map]
    congr 1
    cases s.matcher.incoming with
    | none => rfl
    | some i => simp [h]
  · cases hi : s.matcher.incoming with
    | none => simp [State.onIncoming, hi]
    | some i => simp [State.onIncoming, hi, h]
  · obtain ⟨hc, hi⟩ := (Matcher.countsBounded_iff _).mp hp.counts
    refine (Matcher.countsBounded_iff _).mpr ⟨hc, fun j hj => ?_⟩
    obtain ⟨i, hin, rfl⟩ := Option.map_eq_some_iff.mp hj
    exact hb i (hi i hin)

theorem State.writeGap_turns (s : State) : Turns s s.writeGap := by
  unfold State.writeGap
  split
  · exact .refl s
  · split
    · rename_i hgap
      exact ((s.write_only _).turns fun _ h => State.write_ported h hgap.2).trans
        (State.onIncoming_turns _ (fun _ => ⟨rfl, rfl⟩) fun _ ⟨_, hl, hc⟩ => ⟨Nat.zero_le _, hl, hc⟩)
    · exact .refl s

theorem State.receiveWrite_turns (s : State) (e : Entry) : Turns s (s.receiveWrite e) := by
  unfold State.receiveWrite
  dsimp only
  refine s.writeGap_turns.trans ?_
  split
  · exact (State.write_only _ _).turns fun _ h => State.write_ported h ‹_›
  · exact State.onIncoming_turns _ (fun _ => ⟨rfl, rfl⟩) fun _ ⟨_, _, hc⟩ => ⟨addUpTo_le .., addUpTo_le .., hc⟩

theorem State.receiveWrites_turns (es : List Entry) (s : State) : Turns s (s.receiveWrites es) := by
  unfold State.receiveWrites
  induction es generalizing s with
  | nil => exact .refl s
  | cons e es ih => exact (s.receiveWrite_turns e).trans (ih _)

theorem State.writeGap_runOpen (s : State) :
    s.writeGap.matcher.incoming.any Incoming.runOpen = s.matcher.incoming.any Incoming.runOpen := by
  unfold State.writeGap
  split
  · rfl
  · split
    · rename_i i hi _
      simp [State.onIncoming, hi]
    · rfl

theorem State.writeNotice_only (s : State) (originator : Code) (d : Option Nat) :
    OnlyMech s (s.writeNotice originator d) := by
  unfold State.writeNotice
  split
  · split
    · exact State.writeAll_only _ _
    · exact .refl _
  · exact .refl _

theorem State.writeNotice_ported {s : State} (h : s.Ported) (originator : Code) (d : Option Nat) :
    (s.writeNotice originator d).Ported := by
  unfold State.writeNotice
  split
  · split
    · rename_i hroom
      refine State.writeAll_ported h (le_trans ?_ hroom)
      simp [inRunNotice, digits2]
    · exact h
  · exact h

/-- The RUN-END of a receive run goes into its kept entry, and the port is free (R79, R89). -/
theorem State.runClosed_ported {s : State} (h : s.Ported) (hopen : s.matcher.incoming.any Incoming.runOpen = true)
    {x : Matcher} (hx : x.incoming.any Incoming.runOpen = false) (hc : x.countsBounded) :
    PortFits (s.write .runEnd).mech.queue.releasePort x := by
  have hholder : s.mech.queue.holder = .receive := h.receiveHeld.mpr hopen
  have hlocal : s.mech.queue.localRun ≠ .opened := fun hl => by
    rw [h.localHeld.mpr hl] at hholder
    cases hholder
  obtain ⟨hlen, -, hl⟩ := s.write_facts .runEnd
  have hroom := h.room
  rw [CopyQueue.runOpen, hholder] at hroom
  exact ⟨hlen.trans hroom, ⟨nofun, fun hh => absurd (hl ▸ hh) hlocal⟩, by simp [CopyQueue.releasePort, hx], hc⟩

theorem State.closeReceiveRun_turns (s : State) (d : Option Nat) : Turns s (s.closeReceiveRun d) := by
  cases hi : s.matcher.incoming with
  | none =>
    rw [State.closeReceiveRun, hi]
    exact .refl s
  | some i =>
    cases ho : i.runOpen with
    | false =>
      rw [State.closeReceiveRun_of_shut hi ho]
      exact .refl s
    | true =>
      rw [State.closeReceiveRun_of_open hi ho]
      refine s.writeGap_turns.trans (.trans (t := s.writeGap.writeNotice i.header.originator d) ?_ ?_)
      · exact (State.writeNotice_only _ _ _).turns fun _ h => State.writeNotice_ported h _ _
      · obtain ⟨m, hm⟩ := s.writeGap.writeNotice_only i.header.originator d
        have hopen : (s.writeGap.writeNotice i.header.originator d).matcher.incoming.any Incoming.runOpen = true := by
          rw [hm]
          simp [State.writeGap_runOpen, hi, ho]
        refine .of_eq ?_ fun _ h => State.runClosed_ported h hopen ?_ ?_
        · simp only [State.books, Option.map_map]
          rfl
        · dsimp only
          generalize (((s.writeGap.writeNotice i.header.originator d).write .runEnd).onQueue CopyQueue.releasePort).matcher = x
          cases x.incoming <;> rfl
        · obtain ⟨-, hb⟩ := (Matcher.countsBounded_iff _).mp h.counts
          refine (Matcher.countsBounded_iff _).mpr ⟨addUpTo_le .., fun j hj => ?_⟩
          obtain ⟨k, hk, rfl⟩ := Option.map_eq_some_iff.mp hj
          obtain ⟨-, hl, hc⟩ := hb k hk
          exact ⟨Nat.zero_le _, hl, hc⟩

theorem State.closeReceiveRun_runOpen (s : State) (d : Option Nat) :
    (s.closeReceiveRun d).matcher.incoming.any Incoming.runOpen = false := by
  cases hi : s.matcher.incoming with
  | none =>
    rw [State.closeReceiveRun, hi]
    exact congrArg (Option.any Incoming.runOpen) hi
  | some i =>
    cases ho : i.runOpen with
    | false =>
      rw [State.closeReceiveRun_of_shut hi ho, hi]
      exact ho
    | true =>
      rw [State.closeReceiveRun_of_open hi ho]
      dsimp only
      generalize (((s.writeGap.writeNotice i.header.originator d).write .runEnd).onQueue CopyQueue.releasePort).matcher = x
      cases x.incoming <;> rfl

theorem State.matchText_turns (s : State) (x : RxChar) : Turns s (s.matchText x) := by
  unfold State.matchText
  split
  · have hcounted := s.onIncoming_turns (f := fun i => { i with chars := addUpTo 65535 i.chars 1 })
      (fun _ => ⟨rfl, rfl⟩) fun _ ⟨hg, hl, _⟩ => ⟨hg, hl, addUpTo_le ..⟩
    dsimp only
    split
    · exact hcounted.trans (State.receiveWrite_turns _ _)
    · exact hcounted.trans (State.onIncoming_turns _ (fun _ => ⟨rfl, rfl⟩) fun _ ⟨hg, _, hc⟩ => ⟨hg, addUpTo_le .., hc⟩)
    · exact hcounted
  · exact .refl s

/-- A message is accepted only where two entries are free (R72). -/
theorem State.room_of_accepted {s : State} {h : Header} (hd : s.disposition h = .accepted) :
    2 ≤ s.mech.queue.freeForOther := by
  unfold State.disposition at hd
  dsimp only at hd
  split at hd
  · cases hd
  · split at hd
    · cases hd
    · split at hd
      · cases hd
      · split at hd
        · cases hd
        · split at hd
          · assumption
          · cases hd

/-- A local run that is open makes room for the run that suspends it (R93). -/
theorem State.suspendLocalRun_room {s : State} {k : Nat}
    (hlocal : s.mech.queue.holder = .localRun ↔ s.mech.queue.localRun = .opened) (hk : 0 < k)
    (hroom : k ≤ s.mech.queue.freeForOther) : s.suspendLocalRun.mech.queue.localRun ≠ .opened ∧
      s.suspendLocalRun.mech.queue.entries.length + k ≤ 2048 := by
  rw [CopyQueue.freeForOther, CopyQueue.free, CopyQueue.runOpen, Config.copyCapacity] at hroom
  unfold State.suspendLocalRun
  split
  · rename_i hl
    obtain ⟨hlen, -, -⟩ := s.write_facts .runEnd
    rw [hlocal.mpr hl] at hroom
    refine ⟨nofun, ?_⟩
    show (s.write .runEnd).mech.queue.entries.length + k ≤ 2048
    simp at hroom
    omega
  · rename_i hl
    refine ⟨hl, ?_⟩
    split at hroom <;> omega

/-- A notice run is written whole where it fits, behind the RUN-END of the local run it suspends (R93, R96). -/
theorem State.testNotice_ported {s : State} (h : s.Ported) : s.testNotice.Ported := by
  have hpop (q : CopyQueue) : q.popRequest.holder = q.holder ∧ q.popRequest.localRun = q.localRun := by
    unfold CopyQueue.popRequest
    dsimp only
    split <;> exact ⟨rfl, rfl⟩
  have hdropped : (s.onQueue CopyQueue.popRequest).Ported :=
    PortFits.shorter h (by rw [← s.mech.queue.popRequest_same.entries]; rfl) (hpop _).1 (hpop _).2
  have htold : (s.onQueue CopyQueue.tellCopier).Ported := PortFits.shorter h le_rfl rfl rfl
  unfold State.testNotice
  dsimp only
  split
  · exact h
  · rename_i hfree
    split
    · exact htold
    · split
      · exact hdropped
      · rename_i codes _
        split
        · exact hdropped
        · split
          · rename_i hroom
            obtain ⟨hshut, hlen⟩ := State.suspendLocalRun_room h.localHeld (by simp [noticeRun]) hroom
            obtain ⟨hlonger, -, hl⟩ := s.suspendLocalRun.writeAll_facts (noticeRun codes)
            obtain ⟨m, hm⟩ := s.suspendLocalRun_only
            have hmatcher : (s.suspendLocalRun.writeAll (noticeRun codes)).matcher = s.matcher := by rw [hm]; rfl
            have hsame := CopyQueue.popRequest_same
              { (s.suspendLocalRun.writeAll (noticeRun codes)).mech.queue with holder := .none }
            obtain ⟨hnone, hrun⟩ := hpop { (s.suspendLocalRun.writeAll (noticeRun codes)).mech.queue with holder := .none }
            refine PortFits.shorter (q := { (s.suspendLocalRun.writeAll (noticeRun codes)).mech.queue with holder := .none })
              ⟨hlonger.trans hlen, ⟨nofun, fun hh => absurd (hl ▸ hh) hshut⟩, ⟨nofun, fun hx => ?_⟩, ?_⟩
              (by rw [← hsame.entries]; rfl) hnone hrun
            · have hopen : (s.suspendLocalRun.writeAll (noticeRun codes)).matcher.incoming.any Incoming.runOpen = true := hx
              rw [hmatcher] at hopen
              exact absurd (h.receiveHeld.mpr hopen) hfree
            · show (s.suspendLocalRun.writeAll (noticeRun codes)).matcher.countsBounded
              rw [hmatcher]
              exact h.counts
          · exact htold

theorem State.runStarted_books (s : State) : s.runStarted.books = s.books := by
  obtain ⟨m, hm⟩ := s.suspendLocalRun_only
  rw [State.runStarted, hm]
  rfl

/-- The receive run has the port and its RUN-START (R72, R90). -/
theorem State.runStarted_ported {s : State} (hlocal : s.mech.queue.holder = .localRun ↔ s.mech.queue.localRun = .opened)
    (hroom : 2 ≤ s.mech.queue.freeForOther) {i : Incoming} (hi : s.matcher.incoming = some i) (ho : i.runOpen = true)
    (hb : i.Bounded) : s.runStarted.Ported := by
  obtain ⟨hshut, hlen⟩ := State.suspendLocalRun_room hlocal Nat.two_pos hroom
  obtain ⟨m, hm⟩ := s.suspendLocalRun_only
  obtain ⟨hlonger, hh, hl⟩ :=
    (s.suspendLocalRun.onQueue fun q => { q with holder := .receive, offering := false }).write_facts .runStart
  have hholder : s.runStarted.mech.queue.holder = .receive := hh
  have hmatcher : s.runStarted.matcher.incoming = some i := by
    show s.suspendLocalRun.matcher.incoming = some i
    rw [hm]
    exact hi
  have hlonger' : s.runStarted.mech.queue.entries.length ≤ s.suspendLocalRun.mech.queue.entries.length + 1 := hlonger
  refine ⟨?_, ⟨fun h => ?_, fun h => absurd (hl ▸ h) hshut⟩, ?_, ?_⟩
  · split <;> omega
  · rw [hholder] at h
    cases h
  · rw [hholder, hmatcher]
    simp [ho]
  · refine (Matcher.countsBounded_iff _).mpr ⟨Nat.zero_le _, fun j hj => ?_⟩
    rw [hmatcher] at hj
    obtain rfl := Option.some.inj hj
    exact hb

theorem State.matchHeader_turns (s : State) (h : Header) (valid : Bool) : Turns s (s.matchHeader h valid) := by
  unfold State.matchHeader
  split
  · rename_i hidle
    have hstate : s.matcher.state = .idle := by
      simp only [Bool.and_eq_true, beq_iff_eq] at hidle
      exact hidle.2
    unfold State.takeCall
    dsimp only
    split
    · rename_i hd
      rw [State.openReceiveRun_eq]
      refine .trans ⟨?_, fun _ hp => ?_⟩ (State.receiveWrites_turns _ _)
      · rw [State.runStarted_books]
        exact .single (.taken h.seq h.originator h.kind hstate)
      · refine State.runStarted_ported hp.localHeld (State.room_of_accepted (s := s) (by simpa using hd)) rfl hd ?_
        exact ⟨Nat.zero_le _, Nat.zero_le _, Nat.zero_le _⟩
    · rename_i hd
      refine .move (.taken h.seq h.originator h.kind hstate) fun ⟨hcalled, _, _⟩ hp => ?_
      have hnone : s.matcher.incoming = none := by
        cases hi : s.matcher.incoming with
        | none => rfl
        | some i =>
          have hin := hcalled.mpr (by simp [State.books, hi])
          rw [show s.books.matcher = .idle from hstate] at hin
          cases hin
      refine hp.matcher ?_ ((Matcher.countsBounded_iff _).mpr ⟨((Matcher.countsBounded_iff _).mp hp.counts).1, ?_⟩)
      · rw [hnone]
        simpa using hd
      · rintro j ⟨⟩
        exact ⟨Nat.zero_le _, Nat.zero_le _, Nat.zero_le _⟩
  · exact .refl s

/-- The incoming record finished and dropped, its run closed, and the matcher free (R81). -/
theorem State.incomingEnded_turns {s : State} {i : Incoming} (hs : s.matcher.state = .called)
    (hi : s.matcher.incoming = some i) (hshut : i.runOpen = false) (o : InOutcome) {x : Matcher} (hx : x.incoming = none)
    (hcarried : x.carriedGap = s.matcher.carriedGap)
    (hst : x.state = .due ∧ x.answer.isSome = true ∨ x.state = .idle ∧ x.answer.isSome = false) :
    Turns s { s with log := s.log.finishIn i.logNumber o i.chars i.lost, matcher := x } := by
  have hmove := Books.Move.ended (b := s.books) i.logNumber o i.chars i.lost x.state x.answer.isSome
    (by simp [State.books, hi]) hs hst
  refine .move ?_ fun _ hp => hp.matcher ?_ ?_
  · convert hmove using 1
    simp [State.books, hx]
  · simp [hx, hi, hshut]
  · rw [Matcher.countsBounded, hx, hcarried]
    exact ⟨((Matcher.countsBounded_iff _).mp hp.counts).1, rfl⟩

end Sys2Proof.Machine
end

section
/-! The books at the end of a called message, at the listener, at the keyer, and at every command. -/

namespace Sys2Proof.Machine

open Sys2Proof
open State (Turns)

/-! ### The end of a called message -/

theorem State.endCalled_turns {s : State} {i : Incoming} (hs : s.matcher.state = .called)
    (hi : s.matcher.incoming = some i) (good : Bool) (ph : Phase) : Turns s (s.endCalled i good ph) := by
  obtain ⟨m, x, hrun⟩ := State.closeReceiveRun_run
    { s with matcher := { s.matcher with peers := s.peersAtEnd i good } } (endNotice (s.response i good))
  obtain ⟨carried, r, g, hm⟩ := State.closeReceiveRun_incoming
    (s := { s with matcher := { s.matcher with peers := s.peersAtEnd i good } }) hi (endNotice (s.response i good))
  have hshut := State.closeReceiveRun_runOpen
    { s with matcher := { s.matcher with peers := s.peersAtEnd i good } } (endNotice (s.response i good))
  have hclosed : Turns s (s.endClosed i good) :=
    .after (State.closeReceiveRun_turns _ (endNotice (s.response i good))) rfl fun _ h => h.matcher rfl h.counts
  rw [← State.endClosed] at hrun hm hshut
  rw [hm] at hshut
  have hended := State.incomingEnded_turns (s := s.endClosed i good) (by rw [hm]; exact hs) (by rw [hm]) hshut
    (endOutcome i (s.response i good))
    (x := {
      state := if (s.formAnswer i (s.response i good) ph).isSome then .due else .idle
      peers := s.peersAtEnd i good
      carriedGap := (s.endClosed i good).matcher.carriedGap
      incoming := none
      answer := s.formAnswer i (s.response i good) ph }) rfl rfl (by
        cases s.formAnswer i (s.response i good) ph with
        | none => exact .inr ⟨rfl, rfl⟩
        | some a => exact .inl ⟨rfl, rfl⟩)
  have hlog : (s.endClosed i good).log = s.log := by rw [hrun]
  rw [State.endCalled_eq hi, ← hlog]
  exact hclosed.trans hended

theorem State.matchEnd_turns (s : State) (good : Bool) (ph : Phase) : Turns s (s.matchEnd good ph) := by
  unfold State.matchEnd
  split
  · rename_i hs hi
    exact State.endCalled_turns hs hi good ph
  · exact .refl s

theorem State.matchBroken_turns (s : State) (d : Nat) (o : InOutcome) : Turns s (s.matchBroken d o) := by
  by_cases hs : s.matcher.state = .called
  · cases hi : s.matcher.incoming with
    | some i =>
      rw [State.matchBroken_of_called hs hi]
      obtain ⟨m, x, hrun⟩ := s.closeReceiveRun_run (some d)
      obtain ⟨carried, r, g, hm⟩ := State.closeReceiveRun_incoming hi (some d)
      have hshut := s.closeReceiveRun_runOpen (some d)
      rw [hm] at hshut
      have hended := State.incomingEnded_turns (s := s.closeReceiveRun (some d)) (by rw [hm]; exact hs) (by rw [hm]) hshut o
        (x := { (s.closeReceiveRun (some d)).matcher with state := .idle, incoming := none, answer := none }) rfl rfl
        (.inr ⟨rfl, rfl⟩)
      have hlog : (s.closeReceiveRun (some d)).log = s.log := by rw [hrun]
      rw [← hlog]
      exact (s.closeReceiveRun_turns (some d)).trans hended
    | none =>
      -- a matcher in CALLED has an incoming record
      have hshut : s.closeReceiveRun (some d) = s := by rw [State.closeReceiveRun, hi]
      have hover : s.matchBroken d o =
          { s with matcher := { s.matcher with state := .idle, answer := none } } := by
        simp only [State.matchBroken, hs, hshut, State.finishIncoming, hi]
      rw [hover]
      refine .move (.answering .idle false (s.keyer.holder == .answer) fun ⟨hcalled, _, _⟩ => ?_)
        fun _ h => h.matcher rfl h.counts
      have hnone := hcalled.mp hs
      simp [State.books, hi] at hnone
  · rw [State.matchBroken_of_idle hs]
    exact .refl s

/-- An answer that is due, or one that the keyer was to begin, is abandoned (R84). -/
theorem State.answerPhaseOver_turns (s : State) : Turns s s.answerPhaseOver := by
  unfold State.answerPhaseOver
  split
  · rename_i hdue
    have hstate : s.books.matcher = .due := hdue
    refine .move (.answering .idle false (s.keyer.holder == .answer) fun ⟨hcalled, _, hkey⟩ => ⟨?_, by simp, ?_⟩)
      fun _ h => h.matcher rfl h.counts
    · simpa [hstate] using hcalled
    · exact hkey.trans (by simp [hstate])
  · exact .refl s

theorem State.startAnswer_turns {s : State} (a : Answer) (hdue : s.matcher.state = .due) :
    Turns s (s.startAnswer a) := by
  have hstate : s.books.matcher = .due := hdue
  unfold State.startAnswer
  split
  · refine .move (.answering .keying true true fun ⟨hcalled, _, _⟩ => ⟨?_, by simp, by simp⟩)
      fun _ h => h.matcher rfl h.counts
    simpa [hstate] using hcalled
  · refine .move (.answering .idle false (s.keyer.holder == .answer) fun ⟨hcalled, _, hkey⟩ => ⟨?_, by simp, ?_⟩)
      fun _ h => h.matcher rfl h.counts
    · simpa [hstate] using hcalled
    · exact hkey.trans (by simp [hstate])

/-! ### The listener -/

/-- The listener moves on, its line error count and DEGRADED as they are. -/
theorem State.onListener_turns (s : State) {f : Listener → Listener} (herr : (f s.listener).errors = s.listener.errors)
    (hdeg : (f s.listener).degraded = s.listener.degraded)
    (hacc : s.listener.acc ≤ 1023 → (f s.listener).acc ≤ 1023) : Turns s (s.onListener f) := by
  have hsummed : Turns s { s with listener := { s.listener with acc := (f s.listener).acc } } :=
    .move (.summed _ hacc) fun _ h => h
  refine hsummed.before ?_ fun _ h => h
  simp only [State.books, State.onListener, herr, hdeg]

theorem State.countError_turns (s : State) : Turns s s.countError :=
  .move (.counted s.loader.params.errorThreshold) fun _ h => h

theorem State.countGood_turns (s : State) : Turns s (s.onListener Listener.countGood) := .move .lowered fun _ h => h

theorem State.cover_turns (s : State) (x : RxChar) : Turns s (s.onListener fun l => l.cover x) :=
  s.onListener_turns rfl rfl fun h => feedCheck_le _ _ _ h

theorem State.headerTaken_turns (s : State) (h : Header) : Turns s (s.headerTaken h) := by
  unfold State.headerTaken
  dsimp only
  split
  · exact (s.onListener_turns rfl rfl id).trans (State.matchHeader_turns _ _ _)
  · exact (s.onListener_turns rfl rfl id).trans ((State.matchHeader_turns _ _ _).trans (State.countError_turns _))

theorem State.takeField_turns (s : State) (x : RxChar) : Turns s (s.takeField x) := by
  have hfed := s.onListener_turns
    (f := fun l => { l.cover x with fields := l.fields ++ [x.code], held := none }) rfl rfl
    fun h => feedCheck_le _ _ _ h
  unfold State.takeField
  dsimp only
  split
  · exact hfed.trans (State.headerTaken_turns _ _)
  · exact hfed

theorem State.textCharacter_turns (s : State) (x : RxChar) : Turns s (s.textCharacter x) :=
  (s.cover_turns x).trans (State.matchText_turns _ x)

theorem State.messageOver_turns (s : State) (d : Nat) (o : InOutcome) (next : ListenerState) :
    Turns s (s.messageOver d o next) := by
  unfold State.messageOver
  dsimp only
  refine .trans ?_ (State.onListener_turns _ rfl rfl fun _ => Nat.zero_le _)
  refine .trans ?_ (State.matchBroken_turns _ _ _)
  split
  · exact (s.matchText_turns _).trans (State.matchText_turns _ _)
  · exact .refl s

theorem State.newCall_turns (h x : RxChar) (s : State) : Turns s (State.newCall h x s) :=
  (s.onListener_turns rfl rfl id).trans
    ((State.messageOver_turns _ _ _ _).trans (State.onListener_turns _ rfl rfl fun _ => Nat.zero_le _))

theorem State.takeText_turns (s : State) (x : RxChar) : Turns s (s.takeText x) := by
  unfold State.takeText
  split
  · split
    · exact s.onListener_turns rfl rfl id
    · exact s.textCharacter_turns x
  · have hreleased : Turns s (s.onListener fun l => { l with held := none }) := s.onListener_turns rfl rfl id
    dsimp only
    split
    · exact hreleased.trans (State.newCall_turns _ _ _)
    · split
      · exact hreleased.trans (State.onListener_turns _ rfl rfl fun h => padCheck_le _ _ h)
      · split
        · exact hreleased.trans (State.messageOver_turns _ _ _ _)
        · exact hreleased.trans ((State.textCharacter_turns _ _).trans (State.textCharacter_turns _ _))

theorem State.takeHeader_turns (s : State) (x : RxChar) : Turns s (s.takeHeader x) := by
  unfold State.takeHeader
  split
  · split
    · exact s.onListener_turns rfl rfl id
    · exact s.takeField_turns x
  · split
    · exact State.newCall_turns _ _ _
    · dsimp only
      split
      · exact (s.takeField_turns _).trans (State.takeText_turns _ _)
      · exact (s.takeField_turns _).trans (State.takeField_turns _ _)

theorem State.checkTaken_turns (s : State) (a b : RxChar) : Turns s (s.checkTaken a b) := by
  have hformed (good : Bool) (ph : Phase) :
      Turns s ((s.onListener fun l =>
        { l with acc := addSymbol s.listener.acc (32 * a.code.val + b.code.val), held := none, check := none }).matchEnd
          good ph) :=
    (s.onListener_turns rfl rfl fun h => (addSymbol_spec _ _ h (by omega)).1).trans (State.matchEnd_turns _ _ _)
  unfold State.checkTaken
  dsimp only
  refine .trans ?_ (State.phaseReported_turns _ _)
  refine .trans ?_ (State.onListener_turns _ rfl rfl id)
  split
  · split
    · exact (hformed _ _).trans (State.countGood_turns _)
    · exact hformed _ _
  · exact (hformed _ _).trans (State.countError_turns _)

theorem State.takeCheck_turns (s : State) (x : RxChar) : Turns s (s.takeCheck x) := by
  unfold State.takeCheck
  split
  · exact s.checkTaken_turns _ _
  · split
    · exact s.onListener_turns rfl rfl id
    · exact s.onListener_turns rfl rfl id
  · split
    · exact State.newCall_turns _ _ _
    · exact s.checkTaken_turns _ _

theorem State.takeIdle_turns (s : State) (x : RxChar) : Turns s (s.takeIdle x) := by
  unfold State.takeIdle
  split
  · split
    · exact s.onListener_turns rfl rfl id
    · exact .refl s
  · split
    · exact s.onListener_turns rfl rfl fun _ => Nat.zero_le _
    · exact s.onListener_turns rfl rfl id

theorem State.takeChar_turns (s : State) (x : RxChar) : Turns s (s.takeChar x) := by
  unfold State.takeChar
  split
  · exact s.phaseChar_turns x
  · split
    · exact .refl s
    · exact s.takeIdle_turns x
    · exact s.takeHeader_turns x
    · exact s.takeText_turns x
    · exact s.takeCheck_turns x
    · exact s.phaseChar_turns x
    · exact s.phaseChar_turns x

theorem State.listen_turns (s : State) (x : RxChar) : Turns s (s.listen x) := by
  unfold State.listen
  split
  · exact .refl s
  · refine .trans ?_ (State.takeChar_turns _ x)
    split
    · exact s.countError_turns
    · exact .refl s

theorem State.phaseOver_turns (s : State) (t : Ticks) (next : ListenerState) : Turns s (s.phaseOver t next) :=
  (s.onListener_turns rfl rfl id).trans ((State.phaseJudged_turns _).trans (State.answerPhaseOver_turns _))

theorem State.listenerBreak_turns (s : State) (t : Ticks) : Turns s (s.listenerBreak t) := by
  unfold State.listenerBreak
  split
  · exact s.messageOver_turns _ _ _
  · split
    · exact s.phaseOver_turns _ _
    · exact s.onListener_turns rfl rfl id

theorem State.listenerQuiet_turns (s : State) (date t : Ticks) : Turns s (s.listenerQuiet date t) := by
  unfold State.listenerQuiet
  split
  · exact s.onListener_turns rfl rfl id
  · exact s.onListener_turns rfl rfl id
  · exact s.messageOver_turns _ _ _
  · exact s.messageOver_turns _ _ _
  · exact s.messageOver_turns _ _ _
  · split
    · exact s.phaseOver_turns _ _
    · exact .refl s
  · exact .refl s

theorem State.levelChanged_turns (s : State) (date : Ticks) : Turns s (s.levelChanged date) := by
  unfold State.levelChanged
  split
  · exact .of_eq rfl fun _ h => h
  · unfold State.toMark
    dsimp only
    refine .trans ?_ (State.settle_turns _)
    refine .trans ?_ (State.spaceEnded_turns _ _)
    split
    · exact .after (State.listen_turns _ _) rfl fun _ h => h
    · exact .of_eq rfl fun _ h => h
  · exact .refl s

theorem State.lineOpened_turns (s : State) (t : Ticks) : Turns s (s.lineOpened t) := by
  unfold State.lineOpened
  dsimp only
  refine .trans ?_ (State.settle_turns _)
  have hbroken (r : Receiver) :
      Turns s (({ s with receiver := r } : State).listenerBreak t).interrupt :=
    .after ((State.listenerBreak_turns _ t).trans (State.interrupt_turns _)) rfl fun _ h => h
  split
  · rename_i hholder
    exact (hbroken _).trans (State.keyer_turns (by rw [hholder]; rfl))
  · exact hbroken _

/-! ### The keyer -/

theorem State.beginAttempt_turns {s : State} (h : s.keyer.holder = .none) : Turns s s.beginAttempt := by
  have hsending : Turns s (s.onActive fun m => { m with state := .sending }) :=
    State.onActive_turns fun r hr => OutRecord.key_withMessage_active hr fun m => ⟨rfl, .inr (.inl rfl)⟩
  have hgranted := State.keyer_turns (s := s.onActive fun m => { m with state := .sending })
    (k := s.beginAttempt.keyer) (by rw [show (s.onActive _).keyer = s.keyer from rfl, h]; rfl)
  exact (hsending.trans hgranted).before rfl fun _ h => h

theorem State.askHolder_turns (s : State) : Turns s s.askHolder.1 ∧ s.askHolder.1.keyer = s.keyer := by
  unfold State.askHolder State.messageSupply State.answerSupply
  split
  · split
    · split
      · exact ⟨.of_eq rfl fun _ h => h, rfl⟩
      · exact ⟨.refl s, rfl⟩
    · exact ⟨.refl s, rfl⟩
  · split
    · exact ⟨.refl s, rfl⟩
    · rename_i a ha
      split
      · exact ⟨.refl s, rfl⟩
      · exact ⟨.of_eq (by simp [State.books, ha]) fun _ h => h.matcher rfl h.counts, rfl⟩
  · exact ⟨.refl s, rfl⟩

theorem State.supplyPoint_turns (s : State) (c : KeyedChar) : Turns s (s.supplyPoint c) := by
  obtain ⟨hasked, hkeyer⟩ := s.askHolder_turns
  exact hasked.trans (State.keyer_turns (by rw [hkeyer]))

/-- The keyer gives up what it keys, and the holder is told (R37, R39, R40). -/
theorem State.keyerFreed_turns {s t : State} (hmessage : s.keyer.holder = .message →
      Turns { s with keyer := Keyer.reset } t)
    (hanswer : s.keyer.holder = .answer → t = ({ s with keyer := Keyer.reset } : State).answerOver)
    (hother : s.keyer.holder ≠ .message → s.keyer.holder ≠ .answer → t = { s with keyer := Keyer.reset }) :
    Turns s t := by
  by_cases ha : s.keyer.holder = .answer
  · rw [hanswer ha]
    exact s.answerOver_turns
  · have hfree : Turns s { s with keyer := Keyer.reset } :=
      State.keyer_turns (by rw [beq_eq_false_iff_ne.mpr ha]; rfl)
    by_cases hm : s.keyer.holder = .message
    · exact hfree.trans (hmessage hm)
    · rw [hother hm ha]
      exact hfree

theorem State.sequenceOver_turns (s : State) : Turns s s.sequenceOver := by
  refine State.keyerFreed_turns (fun h => ?_) (fun h => ?_) fun hm ha => ?_
  · simp only [State.sequenceOver, h]
    exact State.messageKeyed_turns _
  · simp only [State.sequenceOver, h]
  · unfold State.sequenceOver
    dsimp only
    split
    · exact absurd ‹_› hm
    · exact absurd ‹_› ha
    · rfl

theorem State.mismatch_turns (s : State) (t : Ticks) : Turns s (s.mismatch t) := by
  refine State.keyerFreed_turns (fun h => ?_) (fun h => ?_) fun hm ha => ?_
  · simp only [State.mismatch, h]
    exact State.messageMismatch_turns _ _
  · simp only [State.mismatch, h]
  · unfold State.mismatch
    dsimp only
    split
    · exact absurd ‹_› hm
    · exact absurd ‹_› ha
    · rfl

theorem State.spaceLimit_turns (s : State) : Turns s s.spaceLimit := by
  refine State.keyerFreed_turns (fun h => ?_) (fun h => ?_) fun hm ha => ?_
  · simp only [State.spaceLimit, h]
    exact State.interrupt_turns _
  · simp only [State.spaceLimit, h]
  · unfold State.spaceLimit
    dsimp only
    split
    · exact absurd ‹_› hm
    · exact absurd ‹_› ha
    · rfl

theorem State.stopElementOver_turns (s : State) (next : Supply) (t : Ticks) : Turns s (s.stopElementOver next t) := by
  unfold State.stopElementOver
  split
  · exact State.keyer_turns rfl
  · exact s.sequenceOver_turns
  · exact .refl s

/-! ### Every command -/

/-- An event at the mechanism makes the queue no longer and leaves the port. -/
theorem MechAct.queue_facts {p : Params} {now : Ticks} {m n : Mech} {c : Instr} (h : MechAct p now m c n) :
    n.queue.entries.length ≤ m.queue.entries.length ∧ n.queue.holder = m.queue.holder ∧
      n.queue.localRun = m.queue.localRun := by
  have hport (n : Mech) (h : n.queue.port = m.queue.port) :
      n.queue.holder = m.queue.holder ∧ n.queue.localRun = m.queue.localRun :=
    ⟨congrArg Prod.fst h, congrArg (fun x => x.2.1) h⟩
  cases h with
  | wheel index t =>
    unfold Mech.wheelEvent
    dsimp only
    split
    · exact ⟨Mech.printTake_length_le _, hport _ (Mech.printTake_port _)⟩
    · exact ⟨le_rfl, rfl, rfl⟩
  | punchSwitch => exact ⟨Mech.rest_length_le _, hport _ (Mech.rest_port _)⟩
  | runUp =>
    unfold Mech.runUpExpired
    split <;> exact ⟨le_rfl, rfl, rfl⟩
  | speedOk =>
    unfold Mech.speedChanged
    dsimp only
    split <;> exact ⟨le_rfl, rfl, rfl⟩
  | _ => exact ⟨le_rfl, rfl, rfl⟩

/-- The books go through such moves alone at every command that acts. -/
theorem Acts.turns {c : Instr} {s t : State} (h : Acts c s t) : Turns s t := by
  cases h with
  | mech m hm =>
    obtain ⟨hlen, hh, hl⟩ := hm.queue_facts
    exact (State.Turns.of_eq (s := s) (t := { s with mech := m }) rfl fun _ h => PortFits.shorter h hlen hh hl).trans
      (State.settle_turns _)
  | bellPulseEnd | punchPulseEnd | tapeSensor | shortRun | dataReading | unitBoundary => exact .of_eq rfl fun _ h => h
  | level count date => exact .after (State.levelChanged_turns _ date) rfl fun _ h => h
  | startCentre start paused =>
    unfold State.startCentre
    split <;> exact .of_eq rfl fun _ h => h
  | stopReading start paused bits =>
    unfold State.stopReading
    split
    · exact .after ((State.listen_turns _ _).trans (State.settle_turns _)) rfl fun _ h => h
    · exact .of_eq rfl fun _ h => h
  | quiet date => exact .after ((State.listenerQuiet_turns _ _ _).trans (State.settle_turns _)) rfl fun _ h => h
  | breakEvent u =>
    exact .after ((State.listenerBreak_turns _ u).trans ((State.interrupt_turns _).trans (State.settle_turns _))) rfl fun _ h => h
  | lineOpen u => exact s.lineOpened_turns u
  | startAnswer a hdue ha => exact State.startAnswer_turns a hdue
  | slottedEnd u | freeTimeout u => exact (s.phaseOver_turns _ _).trans (State.settle_turns _)
  | attemptBegin hfree => exact State.beginAttempt_turns hfree
  | supplyPoint x => exact s.supplyPoint_turns x
  | stopElementEnd x u => exact (s.stopElementOver_turns _ _).trans (State.settle_turns _)
  | echoMismatch x u => exact (s.mismatch_turns _).trans (State.settle_turns _)
  | breakLimit since => exact s.spaceLimit_turns.trans (State.settle_turns _)
  | keyDown k => exact (s.keyGoesDown_turns k).trans ((State.routeDown_turns _ k).trans (State.settle_turns _))
  | keyUp k => exact .after ((State.routeUp_turns _ k).trans (State.settle_turns _)) rfl fun _ h => h
  | mode d u => exact (s.modeChanged_turns d).trans (State.settle_turns _)
  | takeKey act k rest hc hq =>
    refine .trans (t := { s with keyboard := { s.keyboard with queue := rest } }) (.move (.keyTaken k rest hq) fun _ h => h) ?_
    exact (keyAction_turns hc k _).trans (State.settle_turns _)
  | copierWrite => exact s.copierWrites_turns
  | noticeWrite => exact (s.testNotice_only.turns fun _ h => State.testNotice_ported h).trans (State.settle_turns _)

end Sys2Proof.Machine
end

section
/-! What every move at the books keeps: the listener's figures (R7, R23), and the bounds of the tables (R45, R141 to
R143). -/

namespace Sys2Proof.Machine

open Sys2Proof
open State (Turns)

/-- What every move keeps, the books of a command's end have. -/
theorem State.Turns.keeps {P : Books → Prop} (move : ∀ b b', b.Move b' → P b → P b') {s t : State}
    (h : State.Turns s t) (hs : P s.books) : P t.books := by
  obtain ⟨h, -⟩ := h
  generalize t.books = b at h ⊢
  induction h with
  | refl => exact hs
  | tail _ hmove ih => exact move _ _ hmove ih

/-- What the start values have, and every move at the books keeps, every step keeps. -/
theorem books_step_keeps {P : Books → Prop} (start : P State.reset.books) (move : ∀ b b', b.Move b' → P b → P b')
    {s t : State} (h : step s = .next t) (hs : P s.books) : P t.books :=
  step_keeps (P := fun s => P s.books) (fun _ _ hp => hp) (fun _ _ hp => hp) (fun _ => start)
    (fun _ _ _ _ _ _ hp => hp) (fun _ _ _ _ hp hact => hact.turns.keeps move hp) h hs

/-! ### The listener's figures -/

/-- The line error count, DEGRADED and the accumulator (R7, R23). -/
abbrev Books.FiguresSafe (b : Books) : Prop := b.errors ≤ 63 ∧ (b.degraded = true → 0 < b.errors) ∧ b.acc ≤ 1023

theorem Books.Move.figures {b b' : Books} (h : b.Move b') (hs : b.FiguresSafe) : b'.FiguresSafe := by
  obtain ⟨herr, hdeg, hacc⟩ := hs
  cases h with
  | counted threshold =>
    refine ⟨addUpTo_le .., fun _ => ?_, hacc⟩
    show 0 < min 63 (b.errors + 1)
    omega
  | lowered => exact ⟨by show b.errors - 1 ≤ 63; omega, fun h => by simp at h; show 0 < b.errors - 1; omega, hacc⟩
  | cleared => exact ⟨Nat.zero_le _, nofun, hacc⟩
  | summed n hn => exact ⟨herr, hdeg, hn hacc⟩
  | _ => exact ⟨herr, hdeg, hacc⟩

/-- Settles O12: the figures move only by the count, the sum and CLEAR. -/
theorem listenerStaysSafe : Obligations.ListenerStaysSafe := fun _ _ hs ht =>
  books_step_keeps (P := Books.FiguresSafe) (by decide) (fun _ _ hm => hm.figures) ht hs

/-! ### The tables -/

theorem countP_onLast_le {α : Type} {p : α → Bool} {f : α → α} (l : List α) (h : ∀ a, p (f a) = true → p a = true) :
    (onLast f l).countP p ≤ l.countP p := by
  rcases l.eq_nil_or_concat' with rfl | ⟨l, a, rfl⟩
  · exact le_rfl
  · rw [onLast_concat, List.countP_append, List.countP_append]
    refine Nat.add_le_add_left ?_ _
    by_cases hf : p (f a) = true
    · simp [hf, h a hf]
    · simp [hf]

/-- Whether a record is active is told by its key. -/
theorem countP_isActive_eq (l : List OutRecord) : l.countP OutRecord.isActive = (l.map OutRecord.key).countP Prod.fst := by
  rw [List.countP_map]
  rfl

theorem OutRecord.isActive_withMessage_false {f : Message → Message} (h : ∀ m, (f m).state = .ready ∨ ∃ o, (f m).state = .done o)
    (r : OutRecord) : (r.withMessage f).isActive = false := by
  unfold OutRecord.withMessage
  cases hb : r.body with
  | text o => simp [OutRecord.isActive, OutRecord.inState, hb]
  | message m =>
    rcases h m with hs | ⟨o, hs⟩ <;> simp [OutRecord.isActive, OutRecord.inState, hs]

/-- The key queue, the store and the outgoing table (R45, R141 to R143). -/
abbrev Books.TablesSafe (b : Books) : Prop :=
  b.keys.length ≤ 6 ∧ b.store.chars.length ≤ 1024 ∧ b.table.length ≤ 8 ∧ b.table.countP OutRecord.isActive ≤ 1

theorem Books.Move.tables {b b' : Books} (h : b.Move b') (hs : b.TablesSafe) : b'.TablesSafe := by
  obtain ⟨hkeys, hstore, htable, hactive⟩ := hs
  cases h with
  | keyTaken k rest hk =>
    rw [hk] at hkeys
    exact ⟨Nat.le_of_succ_le hkeys, hstore, htable, hactive⟩
  | keyQueued k hk => exact ⟨by simpa using hk, hstore, htable, hactive⟩
  | keysCleared => exact ⟨Nat.zero_le _, hstore, htable, hactive⟩
  | marked table hkey =>
    have hlen := congrArg List.length hkey
    simp only [List.length_map] at hlen
    refine ⟨hkeys, hstore, by rw [hlen]; exact htable, ?_⟩
    rw [countP_isActive_eq, hkey, ← countP_isActive_eq]
    exact hactive
  | stored codes hfree =>
    refine ⟨hkeys, ?_, htable, hactive⟩
    have hroom : codes.length ≤ 1024 - b.store.chars.length := hfree
    rw [List.length_append]
    omega
  | text r hlt hr =>
    refine ⟨hkeys, hstore, by simpa using hlt, ?_⟩
    have hno : r.isActive = false := by
      unfold OutRecord.message at hr
      split at hr
      · cases hr
      · rename_i hb
        simp [OutRecord.isActive, OutRecord.inState, hb]
    simpa [List.countP_append, hno] using hactive
  | called seq body r m hlt _ hr hm _ =>
    refine ⟨hkeys, hstore, by simpa using hlt, ?_⟩
    have hno : r.isActive = false := by simp [OutRecord.isActive, OutRecord.inState, hr, hm]
    simpa [List.countP_append, hno] using hactive
  | ready f hf =>
    refine ⟨hkeys, hstore, by simpa using htable, (countP_onLast_le _ fun r hr => ?_).trans hactive⟩
    rw [OutRecord.isActive_withMessage_false (fun m => .inl (hf m).2)] at hr
    cases hr
  | discarded r m k hr hm =>
    refine ⟨hkeys, ?_, ?_, ((List.dropLast_sublist _).countP_le).trans hactive⟩
    · exact (List.length_take_le' ..).trans hstore
    · exact ((List.dropLast_sublist _).length_le).trans htable
  | activated hnone =>
    refine ⟨hkeys, hstore, by simpa using htable, (countP_onFirst_le_succ _ _ _ _).trans ?_⟩
    rw [List.countP_eq_zero.mpr]
    intro r hr
    simpa using List.any_eq_false.mp hnone r hr
  | settled m o answers content collisions retries hm =>
    exact ⟨hkeys, hstore, by simpa using htable, (countP_onFirst_le _ fun _ hr _ => hr).trans hactive⟩
  | givenBack k n hk =>
    refine ⟨hkeys, ?_, ?_, ((List.drop_sublist _ _).countP_le).trans hactive⟩
    · exact ((List.drop_sublist _ _).length_le).trans hstore
    · exact ((List.drop_sublist _ _).length_le).trans htable
  | _ => exact ⟨hkeys, hstore, htable, hactive⟩

/-- Settles O17: a key, a character or a record is added only where there is room, and a record becomes active only
where none is. -/
theorem tablesStaySafe : Obligations.TablesStaySafe := fun _ _ hs ht =>
  books_step_keeps (P := Books.TablesSafe) (by decide) (fun _ _ hm => hm.tables) ht hs

end Sys2Proof.Machine
end

section
/-! What every move at the books keeps of the traffic log (section 10.1). -/

namespace Sys2Proof.Machine

open Sys2Proof

/-! ### The log numbers that outgoing records short of DONE own -/

/-- The log record a message record short of DONE owns. -/
def OutRecord.owned (r : OutRecord) : Option Nat := if r.isDone then none else r.message.map Message.logNumber

/-- The log records the outgoing table owns. -/
def openNumbers (table : List OutRecord) : List Nat := table.filterMap OutRecord.owned

theorem openNumbers_of_map {l l' : List OutRecord} (h : l'.map OutRecord.owned = l.map OutRecord.owned) :
    openNumbers l' = openNumbers l := by
  have hid (l : List OutRecord) : openNumbers l = (l.map OutRecord.owned).filterMap id := by
    rw [List.filterMap_map]
    rfl
  rw [hid, hid, h]

theorem openNumbers_marked {l l' : List OutRecord} (h : l'.map OutRecord.key = l.map OutRecord.key) :
    openNumbers l' = openNumbers l := by
  refine openNumbers_of_map ?_
  have hkey (r : OutRecord) : r.owned = if r.key.2.1 then none else r.key.2.2 := rfl
  have hmap (l : List OutRecord) :
      l.map OutRecord.owned = (l.map OutRecord.key).map fun k => if k.2.1 then none else k.2.2 := by
    rw [List.map_map]
    exact List.map_congr_left fun r _ => hkey r
  rw [hmap, hmap, h]

theorem openNumbers_append (l l' : List OutRecord) : openNumbers (l ++ l') = openNumbers l ++ openNumbers l' :=
  List.filterMap_append ..

theorem openNumbers_length (l : List OutRecord) : (openNumbers l).length ≤ l.length := List.length_filterMap_le ..

theorem OutRecord.owned_of_message {r : OutRecord} {m : Message} (hb : r.body = .message m) (hm : ∀ o, m.state ≠ .done o) :
    r.owned = some m.logNumber := by
  have hdone : r.isDone = false := by
    rw [OutRecord.isDone, hb]
    cases hs : m.state with
    | done o => exact absurd hs (hm o)
    | _ => simp [hs]
  rw [OutRecord.owned, hdone, OutRecord.message, hb]
  rfl

theorem OutRecord.owned_eq {r : OutRecord} {m : Message} (hm : r.message = some m) {n : Nat} (h : r.owned = some n) :
    n = m.logNumber := by
  rw [OutRecord.owned, hm] at h
  split at h
  · cases h
  · exact (Option.some.inj h).symm

theorem OutRecord.owned_of_finished {r : OutRecord} (h : r.finished = true) : r.owned = none := by
  rw [OutRecord.finished, Bool.and_eq_true] at h
  obtain ⟨-, h⟩ := h
  rw [OutRecord.owned, OutRecord.message]
  cases hb : r.body with
  | text o => simp
  | message m => simp_all

/-- A change that ends the first record with `q` takes at most the log record it owned. -/
theorem openNumbers_onFirst {q : OutRecord → Bool} {f : OutRecord → OutRecord} {m : Message} {l : List OutRecord}
    (h : (l.find? q).bind OutRecord.message = some m) {n : Nat} (hn : n ∈ openNumbers l) (hne : n ≠ m.logNumber) :
    n ∈ openNumbers (onFirst q f l) := by
  induction l with
  | nil => cases hn
  | cons b l ih =>
    simp only [openNumbers, List.filterMap_cons] at hn
    rw [onFirst]
    split
    · rename_i hb
      have hmsg : b.message = some m := by simpa [List.find?, hb] using h
      have hrest : n ∈ openNumbers l := by
        cases ho : b.owned with
        | none =>
          simp only [ho] at hn
          exact hn
        | some k =>
          simp only [ho, List.mem_cons] at hn
          exact hn.resolve_left (OutRecord.owned_eq hmsg ho ▸ hne)
      rw [← List.singleton_append, openNumbers_append]
      exact List.mem_append_right _ hrest
    · rename_i hb
      have hrest (hn : n ∈ openNumbers l) : n ∈ openNumbers (onFirst q f l) :=
        ih (by simpa [List.find?, hb] using h) hn
      rw [openNumbers, List.filterMap_cons]
      cases ho : b.owned with
      | none => exact hrest (by simp only [ho] at hn; exact hn)
      | some k =>
        simp only [ho, List.mem_cons] at hn ⊢
        exact hn.imp_right hrest

/-! ### The log and what owns its records -/

/-- The log records that outgoing records own, or the incoming one (R173, R174). -/
def Books.owners (b : Books) : LogBody → List Nat
  | .outgoing .. => openNumbers b.table
  | .incoming .. => b.incoming.toList

/-- The log's bound, its numbers, and the owner of every unfinished record (R171, R172). -/
structure Books.LogSafe (b : Books) : Prop where
  length : b.log.records.length ≤ 16
  numbers : (b.log.records.map LogRecord.number).Nodup
  counter : b.log.counter < 256
  bounded : ∀ r ∈ b.log.records, r.number < 256
  owned : ∀ r ∈ b.log.records, r.finished = false → r.number ∈ b.owners r.body
  table : b.table.length ≤ 8
  agrees : b.Agrees

theorem Books.mem_owners_of {b b' : Books} (ht : ∀ n ∈ openNumbers b.table, n ∈ openNumbers b'.table)
    (hi : ∀ n ∈ b.incoming.toList, n ∈ b'.incoming.toList) (body : LogBody) : ∀ n ∈ b.owners body, n ∈ b'.owners body := by
  cases body with
  | outgoing => exact ht
  | incoming => exact hi

namespace Books.LogSafe

/-- A move that leaves the log and takes no owner away. -/
theorem of_owners {b b' : Books} (hs : b.LogSafe) (hlog : b'.log = b.log)
    (howners : ∀ body, ∀ n ∈ b.owners body, n ∈ b'.owners body) (ht : b'.table.length ≤ 8) (ha : b'.Agrees) :
    b'.LogSafe where
  length := hlog ▸ hs.length
  numbers := hlog ▸ hs.numbers
  counter := hlog ▸ hs.counter
  bounded := hlog ▸ hs.bounded
  owned r hr hf := howners _ _ (hs.owned r (hlog ▸ hr) hf)
  table := ht
  agrees := ha

/-- A move at the log record `n` that keeps its number. -/
theorem of_update {b b' : Books} (hs : b.LogSafe) {n : Nat} {f : LogRecord → LogRecord} (hlog : b'.log = b.log.update n f)
    (hnum : ∀ r, (f r).number = r.number)
    (hother : ∀ body, ∀ k ∈ b.owners body, k ≠ n → k ∈ b'.owners body)
    (hsame : ∀ r, r.finished = false → r.number ∈ b.owners r.body → r.number = n →
      (f r).finished = false → (f r).number ∈ b'.owners (f r).body)
    (ht : b'.table.length ≤ 8) (ha : b'.Agrees) : b'.LogSafe where
  length := by rw [hlog, Log.update_length]; exact hs.length
  numbers := by rw [hlog, Log.update_numbers _ _ _ hnum]; exact hs.numbers
  counter := by rw [hlog, Log.update_counter]; exact hs.counter
  bounded r hr := by
    rw [hlog] at hr
    rcases Log.mem_update hr with ⟨hr, -⟩ | ⟨r', hr', -, -, rfl⟩
    · exact hs.bounded r hr
    · rw [hnum]; exact hs.bounded r' hr'
  owned r hr hf := by
    rw [hlog] at hr
    rcases Log.mem_update hr with ⟨hr, hno⟩ | ⟨r', hr', hn, hf', rfl⟩
    · exact hother _ _ (hs.owned r hr hf) fun hn => hno ⟨hn, hf⟩
    · exact hsame r' hf' (hs.owned r' hr' hf') hn hf
  table := ht
  agrees := ha

/-- Nine records at most are unfinished, so a full log has a finished one to give up (R172). -/
theorem has_finished {b : Books} (hs : b.LogSafe) (hfull : 16 ≤ b.log.records.length) :
    ∃ r ∈ b.log.records, r.finished = true := by
  by_contra hnone
  have hsub : b.log.records.map LogRecord.number ⊆ openNumbers b.table ++ b.incoming.toList := by
    intro n hn
    obtain ⟨r, hr, rfl⟩ := List.mem_map.mp hn
    have howned := hs.owned r hr (by simpa using fun hf => hnone ⟨r, hr, hf⟩)
    cases hb : r.body with
    | outgoing => exact List.mem_append_left _ (by simpa [hb, Books.owners] using howned)
    | incoming => exact List.mem_append_right _ (by simpa [hb, Books.owners] using howned)
  have hle := (hs.numbers.subperm hsub).length_le
  have htable := (openNumbers_length b.table).trans hs.table
  have hincoming : b.incoming.toList.length ≤ 1 := by cases b.incoming <;> simp
  rw [List.length_map, List.length_append] at hle
  omega

/-- A record made in the log has an owner of its own, and a free number (R172). -/
theorem of_create {b b' : Books} (hs : b.LogSafe) {seq : Code} {body : LogBody} (hlog : b'.log = (b.log.create seq body).1)
    (howners : ∀ body, ∀ n ∈ b.owners body, n ∈ b'.owners body)
    (hnew : (b.log.create seq body).2 ∈ b'.owners body) (ht : b'.table.length ≤ 8) (ha : b'.Agrees) : b'.LogSafe := by
  obtain ⟨kept, hkept, hlen, hnumber⟩ : ∃ kept : List LogRecord, kept.Sublist b.log.records ∧ kept.length ≤ 15 ∧
      b.log.create seq body = ({
        records := kept ++ [{ number := freeNumber kept 256 b.log.counter, seq := seq, chars := 0, body := body }]
        counter := (freeNumber kept 256 b.log.counter + 1) % 256 }, freeNumber kept 256 b.log.counter) := by
    by_cases hfull : 16 ≤ b.log.records.length
    · refine ⟨dropOldestFinished b.log.records, dropOldestFinished_sublist _, ?_, ?_⟩
      · have hdrop := dropOldestFinished_length _ (hs.has_finished hfull)
        have hlength := hs.length
        omega
      · simp only [Log.create, if_pos (show Config.logCapacity ≤ _ from hfull)]
    · refine ⟨b.log.records, .refl _, by omega, ?_⟩
      simp only [Log.create, if_neg (show ¬ Config.logCapacity ≤ _ from hfull)]
  obtain ⟨k, -, hfree, hnot, -⟩ := freeNumber_free (records := kept) (by omega) hs.counter
  rw [hnumber] at hlog hnew
  have hmem {r : LogRecord} (hr : r ∈ b'.log.records) : r ∈ b.log.records ∨
      r = { number := freeNumber kept 256 b.log.counter, seq := seq, chars := 0, body := body } := by
    rw [hlog, List.mem_append, List.mem_singleton] at hr
    exact hr.imp_left (hkept.subset ·)
  constructor
  case length => rw [hlog, List.length_append]; exact Nat.succ_le_succ hlen
  case numbers =>
    rw [hlog, List.map_append]
    refine List.Nodup.append (hs.numbers.sublist (hkept.map _)) (List.nodup_singleton _) ?_
    intro n hn hn'
    obtain ⟨r, hr, rfl⟩ := List.mem_map.mp hn
    exact hnot r hr (by simpa using hn')
  case counter => rw [hlog]; exact Nat.mod_lt _ (by decide)
  case bounded =>
    intro r hr
    rcases hmem hr with hr | rfl
    · exact hs.bounded r hr
    · show freeNumber kept 256 b.log.counter < 256
      rw [hfree]
      exact Nat.mod_lt _ (by decide)
  case owned =>
    intro r hr hf
    rcases hmem hr with hr | rfl
    · exact howners _ _ (hs.owned r hr hf)
    · exact hnew
  case table => exact ht
  case agrees => exact ha

end Books.LogSafe

/-! ### Every move -/

theorem openNumbers_ready {f : Message → Message} (hf : ∀ m, (f m).logNumber = m.logNumber ∧ (f m).state = .ready)
    {l : List OutRecord} {n : Nat} (hn : n ∈ openNumbers l) : n ∈ openNumbers (onLast (OutRecord.withMessage f) l) := by
  rcases l.eq_nil_or_concat' with rfl | ⟨l, r, rfl⟩
  · exact hn
  · rw [onLast_concat]
    rw [openNumbers_append, List.mem_append] at hn ⊢
    refine hn.imp_right fun hr => ?_
    obtain ⟨a, ha, ho⟩ := List.mem_filterMap.mp hr
    obtain rfl := List.mem_singleton.mp ha
    refine List.mem_filterMap.mpr ⟨_, List.mem_singleton.mpr rfl, ?_⟩
    unfold OutRecord.withMessage
    cases hb : a.body with
    | text o => exact ho
    | message m =>
      rw [OutRecord.owned_of_message (m := f m) rfl (by simp [hf m]), (hf m).1,
        OutRecord.owned_eq (by rw [OutRecord.message, hb]) ho]

theorem openNumbers_activated (l : List OutRecord) :
    openNumbers (onFirst (OutRecord.inState .ready) (OutRecord.withMessage fun m => { m with state := .contending }) l) =
      openNumbers l := by
  refine openNumbers_of_map (onFirst_map_of _ fun r hr => ?_)
  unfold OutRecord.withMessage
  cases hb : r.body with
  | text o => rfl
  | message m =>
    have hready : m.state = .ready := by simpa [OutRecord.inState, hb] using hr
    rw [OutRecord.owned_of_message (m := { m with state := .contending }) rfl nofun,
      OutRecord.owned_of_message hb (by simp [hready])]

theorem Books.Move.log {b b' : Books} (h : b.Move b') (hs : b.LogSafe) : b'.LogSafe := by
  have hagrees := h.agrees hs.agrees
  cases h with
  | keyTaken | keyQueued | keysCleared | counted | lowered | cleared | summed | stored =>
    exact hs.of_owners rfl (fun _ _ h => h) hs.table hagrees
  | marked table hkey =>
    refine hs.of_owners rfl (Books.mem_owners_of (fun n hn => ?_) fun _ h => h) ?_ hagrees
    · rw [openNumbers_marked hkey]; exact hn
    · have hlen := congrArg List.length hkey
      rw [List.length_map, List.length_map] at hlen
      exact hlen ▸ hs.table
  | text r hlt hr =>
    refine hs.of_owners rfl (Books.mem_owners_of (fun n hn => ?_) fun _ h => h) (by simpa using hlt) hagrees
    rw [openNumbers_append]
    exact List.mem_append_left _ hn
  | called seq body r m hlt hbody hr hm hnum =>
    refine hs.of_create rfl (Books.mem_owners_of (fun n hn => ?_) fun _ h => h) ?_ (by simpa using hlt) hagrees
    · rw [openNumbers_append]
      exact List.mem_append_left _ hn
    · rw [hbody]
      show _ ∈ openNumbers (b.table ++ [r])
      rw [openNumbers_append, ← hbody, ← hnum]
      refine List.mem_append_right _ (List.mem_filterMap.mpr ⟨r, List.mem_singleton.mpr rfl, ?_⟩)
      exact OutRecord.owned_of_message hr (by simp [hm])
  | ready f hf =>
    exact hs.of_owners rfl (Books.mem_owners_of (fun n hn => openNumbers_ready hf hn) fun _ h => h)
      (by simpa using hs.table) hagrees
  | logged n station kind length =>
    refine hs.of_update rfl (fun r => ?_) (fun _ _ h _ => h) (fun r hf ho _ _ => ?_) hs.table hagrees
    · split <;> rfl
    · split
      · rename_i hb
        rw [hb] at ho
        exact ho
      · exact ho
  | discarded r m k hr hm =>
    refine hs.of_update rfl (fun r => ?_) (fun body n hn hne => ?_) (fun r hf ho _ hnf => ?_) ?_ hagrees
    · split <;> rfl
    · cases body with
      | incoming => exact hn
      | outgoing =>
        have hsplit : b.table = b.table.dropLast ++ [r] := (List.dropLast_append_getLast? r hr).symm
        have hmem : n ∈ openNumbers (b.table.dropLast ++ [r]) := hsplit ▸ hn
        rw [openNumbers_append, List.mem_append] at hmem
        refine hmem.resolve_right fun h => hne ?_
        obtain ⟨a, ha, ho⟩ := List.mem_filterMap.mp h
        obtain rfl := List.mem_singleton.mp ha
        exact OutRecord.owned_eq (by rw [OutRecord.message, hm]) ho
    · split at hnf
      · cases hnf
      · rename_i hb
        rw [hb] at ho
        rw [hb]
        exact ho
    · exact ((List.dropLast_sublist _).length_le).trans hs.table
  | activated hnone =>
    refine hs.of_owners rfl (Books.mem_owners_of (fun n hn => ?_) fun _ h => h) (by simpa using hs.table) hagrees
    rw [openNumbers_activated]
    exact hn
  | settled m o answers content collisions retries hm =>
    refine hs.of_update rfl (fun r => ?_) (fun body n hn hne => ?_) (fun r hf ho _ hnf => ?_) (by simpa using hs.table)
      hagrees
    · split <;> rfl
    · cases body with
      | incoming => exact hn
      | outgoing => exact openNumbers_onFirst hm hn hne
    · split at hnf
      · cases hnf
      · rename_i hb
        rw [hb] at ho
        rw [hb]
        exact ho
  | givenBack k n hk =>
    refine hs.of_owners rfl (Books.mem_owners_of (fun n hn => ?_) fun _ h => h)
      (((List.drop_sublist _ _).length_le).trans hs.table) hagrees
    rw [← List.take_append_drop k b.table, openNumbers_append, List.mem_append] at hn
    refine hn.resolve_left fun h => ?_
    obtain ⟨r, hr, ho⟩ := List.mem_filterMap.mp h
    rw [OutRecord.owned_of_finished (hk r hr)] at ho
    cases ho
  | taken seq peer kind hidle =>
    obtain ⟨hcalled, -, -⟩ := hs.agrees
    have hnone : b.incoming = none := by
      cases hi : b.incoming with
      | none => rfl
      | some n => exact absurd (hcalled.mpr (by rw [hi]; rfl)) (by rw [hidle]; exact nofun)
    refine hs.of_create rfl (Books.mem_owners_of (fun _ h => h) fun n hn => ?_) ?_ hs.table hagrees
    · rw [hnone] at hn; cases hn
    · exact List.mem_singleton.mpr rfl
  | ended n o chars lost st answers hi hstate hst =>
    refine hs.of_update rfl (fun r => ?_) (fun body k hk hne => ?_) (fun r hf ho _ hnf => ?_) hs.table hagrees
    · split <;> rfl
    · cases body with
      | outgoing => exact hk
      | incoming =>
        rw [Books.owners, hi] at hk
        exact absurd (List.mem_singleton.mp hk) hne
    · split at hnf
      · cases hnf
      · rename_i hb
        rw [hb] at ho
        rw [hb]
        exact ho
  | answering st answers keying ha => exact hs.of_owners rfl (fun _ _ h => h) hs.table hagrees

/-! ### The safe log -/

theorem State.mem_ownsRecord (s : State) (r : LogRecord) : s.ownsRecord r = true ↔ r.number ∈ s.books.owners r.body := by
  unfold State.ownsRecord
  cases hb : r.body with
  | outgoing p k o a c x y =>
    simp only [Books.owners, openNumbers, List.mem_filterMap, List.any_eq_true, State.books]
    refine exists_congr fun a => and_congr_right fun _ => ?_
    rw [OutRecord.owned]
    cases ha : a.isDone <;> cases hm : a.message <;> simp
  | incoming p k o z =>
    cases hi : s.matcher.incoming with
    | none => simp [Books.owners, State.books, hi]
    | some i => simpa [Books.owners, State.books, hi] using eq_comm

theorem State.agrees_iff (s : State) : s.books.Agrees ↔ s.matcherAgrees := by
  simp [Books.Agrees, State.books, State.matcherAgrees]

theorem State.logSafe_iff (s : State) : s.books.LogSafe ↔ s.logSafe := by
  have howned : s.log.records.all (fun r => r.finished || s.ownsRecord r) = true ↔
      ∀ r ∈ s.log.records, r.finished = false → r.number ∈ s.books.owners r.body := by
    rw [List.all_eq_true]
    refine forall₂_congr fun r _ => ?_
    rw [Bool.or_eq_true, State.mem_ownsRecord]
    cases r.finished <;> simp
  have hbounded : s.log.records.all (fun r => decide (r.number < 256)) = true ↔ ∀ r ∈ s.log.records, r.number < 256 := by
    simp
  constructor
  · rintro ⟨hlen, hnum, hcount, hbound, hown, htable, hagrees⟩
    exact ⟨hlen, hnum, hcount, hbounded.mpr hbound, howned.mpr hown, htable, s.agrees_iff.mp hagrees⟩
  · rintro ⟨hlen, hnum, hcount, hbound, hown, htable, hagrees⟩
    exact ⟨hlen, hnum, hcount, hbounded.mp hbound, howned.mp hown, htable, s.agrees_iff.mpr hagrees⟩

/-- Settles O11: a record joins the log with its owner and the room it needs, and an owner ends only with its log
record finished. -/
theorem trafficLogStaysSafe : Obligations.TrafficLogStaysSafe := fun s t hs ht =>
  t.logSafe_iff.mp (books_step_keeps (P := Books.LogSafe) ((State.logSafe_iff _).mpr (by decide)) (fun _ _ hm => hm.log) ht
    (s.logSafe_iff.mpr hs))

end Sys2Proof.Machine
end

section
/-! The copy queue at rest: its counts, its watermark state and its pointers behind every move of the mechanism
(sections 5.5, 5.6). -/

namespace Sys2Proof.Machine

open Sys2Proof

/-! ### Counts and watermark state -/

/-- The held count, the watermark state and the requests agree with the entries (R95, R98, R102). -/
structure CopyQueue.Counted (q : CopyQueue) : Prop where
  held : q.held = runEnds q.entries
  permitted : q.watermark = .permitted → q.entries.length < 1536
  stopped : q.watermark = .stopped → 1024 < q.entries.length
  requests : q.requests.length ≤ 4

theorem CopyQueue.Counted.append {q : CopyQueue} (h : q.Counted) (e : Entry) : (q.append e).Counted := by
  have hlen : (q.append e).entries.length = q.entries.length + 1 := by simp
  have hmark : (q.append e).watermark = if Config.highWater ≤ q.entries.length + 1 then .stopped else q.watermark := rfl
  refine ⟨?held, fun hw => ?permitted, fun hw => ?stopped, h.requests⟩
  case held => rw [CopyQueue.append_held, CopyQueue.append_entries, runEnds_append, h.held]
  case permitted =>
    rw [hmark] at hw
    rw [hlen]
    split at hw
    · cases hw
    · exact Nat.lt_of_not_le ‹_›
  case stopped =>
    rw [hmark] at hw
    rw [hlen]
    split at hw
    · rename_i hfull
      exact Nat.lt_of_lt_of_le (by decide) hfull
    · exact Nat.lt_succ_of_lt (h.stopped hw)

theorem CopyQueue.Counted.movedTo {q : CopyQueue} (h : q.Counted) (print punch : Nat) :
    (q.movedTo print punch).Counted := by
  have hsplit := runEnds_append (q.entries.take (min print punch)) (q.entries.drop (min print punch))
  rw [List.take_append_drop, ← h.held] at hsplit
  have hlen : (q.movedTo print punch).entries.length = q.entries.length - min print punch := List.length_drop
  have hmark : (q.movedTo print punch).watermark =
      if min print punch ≠ 0 ∧ q.entries.length - min print punch ≤ 1024 then .permitted else q.watermark := rfl
  refine ⟨?held, fun hw => ?permitted, fun hw => ?stopped, h.requests⟩
  case held =>
    show q.held - runEnds (q.entries.take (min print punch)) = runEnds (q.entries.drop (min print punch))
    omega
  case permitted =>
    rw [hmark] at hw
    rw [hlen]
    split at hw
    · omega
    · have hshort := h.permitted hw
      omega
  case stopped =>
    rw [hmark] at hw
    rw [hlen]
    split at hw
    · cases hw
    · have hlong := h.stopped hw
      omega

theorem CopyQueue.Counted.same {q q' : CopyQueue} (h : q.Counted) (hs : q.Same q') : q'.Counted where
  held := by rw [hs.held, hs.entries]; exact h.held
  permitted hw := by rw [hs.entries]; exact h.permitted (hs.watermark ▸ hw)
  stopped hw := by rw [hs.entries]; exact h.stopped (hs.watermark ▸ hw)
  requests := hs.requests h.requests

/-! ### Pointers -/

/-- The pointers come to rest wherever they stand within the queue (R99, R100, R101). -/
theorem Mech.rest_pointersRest {m : Mech} (hprint : m.queue.printAt ≤ m.queue.entries.length)
    (hpunch : m.queue.punchAt ≤ m.queue.entries.length)
    (hhead : m.printer.head.isSome = true → ∃ e, m.queue.printEntry = some e ∧ e.forPrint = true) :
    m.rest.pointersRest := by
  have hpr := passOver_le Entry.forPrint _ _ hprint
  have hpu := passOver_le Entry.forPunch _ _ hpunch
  have hentry : m.rest.queue.printEntry.all Entry.forPrint = true := by
    rw [Mech.rest_printEntry, ← getElem?_passOver]
    exact passOver_rests ..
  have hstands : m.rest.printer.head.isSome = true → m.rest.queue.printEntry.isSome = true := by
    rw [Mech.rest_printer]
    intro hh
    obtain ⟨e, he, hfor⟩ := hhead hh
    rw [CopyQueue.printEntry, ← Nat.add_zero m.queue.printAt, ← List.getElem?_drop] at he
    rw [Mech.rest_printEntry, List.find?_isSome]
    exact ⟨e, List.mem_of_getElem? he, hfor⟩
  by_cases hs : m.punch.switch = .off
  · rw [Mech.rest_of_off hs] at hentry hstands ⊢
    refine ⟨?_, ?_, ?_, hentry, fun h => absurd hs h, fun _ => ?_, hstands⟩
    · simp only [CopyQueue.movedTo, List.length_drop]; omega
    · simp only [CopyQueue.movedTo, List.length_drop]; omega
    · simp only [CopyQueue.movedTo]; omega
    · simp only [CopyQueue.movedTo]; omega
  · have hpunchEntry : m.rest.queue.punchEntry.all Entry.forPunch = true := by
      rw [Mech.rest_punchEntry hs, ← getElem?_passOver]
      exact passOver_rests ..
    rw [Mech.rest_of_on hs] at hentry hstands hpunchEntry ⊢
    refine ⟨?_, ?_, ?_, hentry, fun _ => hpunchEntry, fun h => absurd h hs, hstands⟩
    · simp only [CopyQueue.movedTo, List.length_drop]; omega
    · simp only [CopyQueue.movedTo, List.length_drop]; omega
    · simp only [CopyQueue.movedTo]; omega

/-- The copy queue of a mechanism between two moves. -/
structure Mech.Sound (m : Mech) : Prop where
  counted : m.queue.Counted
  rests : m.pointersRest

namespace Mech.Sound

theorem printIn {m : Mech} (h : m.Sound) : m.queue.printAt ≤ m.queue.entries.length := h.rests.1

theorem punchIn {m : Mech} (h : m.Sound) : m.queue.punchAt ≤ m.queue.entries.length := h.rests.2.1

theorem headStands {m : Mech} (h : m.Sound) (hh : m.printer.head.isSome = true) :
    ∃ e, m.queue.printEntry = some e ∧ e.forPrint = true := by
  obtain ⟨-, -, -, hfor, -, -, hhead⟩ := h.rests
  obtain ⟨e, he⟩ := Option.isSome_iff_exists.mp (hhead hh)
  rw [he, Option.all_some] at hfor
  exact ⟨e, he, hfor⟩

/-- A change beside the queue and the switch that places nothing at the printer's head. -/
theorem keeps {m n : Mech} (h : m.Sound) (hq : n.queue = m.queue) (hs : n.punch.switch = m.punch.switch)
    (hh : n.printer.head.isSome = true → m.printer.head.isSome = true) : n.Sound := by
  obtain ⟨hcounted, hprint, hpunch, hmin, hfor, hforPunch, hoff, hhead⟩ := h
  refine ⟨hq ▸ hcounted, ?_⟩
  rw [Mech.pointersRest, hq, hs]
  exact ⟨hprint, hpunch, hmin, hfor, hforPunch, hoff, fun h => hhead (hh h)⟩

theorem same {m : Mech} {q : CopyQueue} (h : m.Sound) (hq : m.queue.Same q) : Mech.Sound { m with queue := q } := by
  obtain ⟨hcounted, hrests⟩ := h
  refine ⟨hcounted.same hq, ?_⟩
  rw [Mech.pointersRest, CopyQueue.printEntry, CopyQueue.punchEntry] at hrests ⊢
  dsimp only
  rw [hq.entries, hq.printAt, hq.punchAt]
  exact hrests

theorem rest {m : Mech} (hc : m.queue.Counted) (hprint : m.queue.printAt ≤ m.queue.entries.length)
    (hpunch : m.queue.punchAt ≤ m.queue.entries.length)
    (hhead : m.printer.head.isSome = true → ∃ e, m.queue.printEntry = some e ∧ e.forPrint = true) : m.rest.Sound := by
  refine ⟨?_, Mech.rest_pointersRest hprint hpunch hhead⟩
  by_cases hs : m.punch.switch = .off
  · rw [Mech.rest_of_off hs]
    exact hc.movedTo _ _
  · rw [Mech.rest_of_on hs]
    exact hc.movedTo _ _

theorem printTake {m : Mech} (h : m.Sound) {e : Entry} (he : m.queue.printEntry = some e) {r : Printer}
    (hr : r.head = none) : (Mech.printTake { m with printer := r }).Sound := by
  refine rest ?_ ?_ h.punchIn ?_
  · exact ⟨h.counted.held, h.counted.permitted, h.counted.stopped, h.counted.requests⟩
  · obtain ⟨hlt, -⟩ := List.getElem?_eq_some_iff.mp he
    exact hlt
  · intro hh
    rw [show (({ m with printer := r } : Mech).printer) = r from rfl, hr] at hh
    cases hh

theorem punchTake {m : Mech} (h : m.Sound) {e : Entry} (he : m.queue.punchEntry = some e) (u : Punch) :
    (Mech.punchTake { m with punch := u }).Sound := by
  refine rest ?_ h.printIn ?_ h.headStands
  · exact ⟨h.counted.held, h.counted.permitted, h.counted.stopped, h.counted.requests⟩
  · obtain ⟨hlt, -⟩ := List.getElem?_eq_some_iff.mp he
    exact hlt

end Mech.Sound

/-! ### The readers -/

theorem Printer.instant_head {now : Ticks} {r r' : Printer} {e : Entry} (h : r.instant now e = some r') :
    r'.head = r.head := by
  unfold Printer.instant at h
  split at h
  · cases h; rfl
  · cases h; rfl
  · cases h
  · simp only [Option.ite_none_left_eq_some] at h
    obtain ⟨-, h⟩ := h
    split at h
    · split at h <;> cases h <;> rfl
    · split at h
      · cases h; rfl
      · split at h
        · cases h; rfl
        · split at h
          · cases h; rfl
          · split at h
            · cases h; rfl
            · cases h

namespace Mech.Sound

variable {p : Params} {now : Ticks}

theorem printStep {m n : Mech} (h : m.Sound) (hn : m.printStep p now = some n) : n.Sound := by
  obtain ⟨-, ⟨op, rest, r, -, hr, rfl⟩ | ⟨-, -, rfl⟩ | ⟨op, -, -, -, -, rfl⟩ | ⟨op, r, -, -, hhead, -, -, rfl⟩ |
    ⟨e, r, -, -, hhead, he, hr, rfl⟩ | ⟨e, -, -, -, he, -, rfl⟩⟩ := Mech.printStep_cases hn
  · obtain ⟨-, -, -, -, -, -, -, -, hrhead⟩ := Printer.issue_frame hr
    exact h.keeps rfl rfl fun hh => by rw [← hrhead]; exact hh
  · exact h.keeps rfl rfl id
  · exact h.keeps rfl rfl id
  · obtain ⟨e, he, -⟩ := h.headStands (by rw [hhead]; rfl)
    exact h.printTake he rfl
  · exact h.printTake he ((Printer.instant_head hr).trans hhead)
  · obtain ⟨hcounted, hprint, hpunch, hmin, hfor, hforPunch, hoff, -⟩ := h
    exact ⟨hcounted, hprint, hpunch, hmin, hfor, hforPunch, hoff, fun _ => Option.isSome_iff_exists.mpr ⟨e, he⟩⟩

theorem punchStep {m n : Mech} (h : m.Sound) (hn : m.punchStep p now = some n) : n.Sound := by
  obtain ⟨-, e, he, ⟨row, -, rfl⟩ | ⟨-, rfl⟩⟩ := Mech.punchStep_cases hn
  · exact h.punchTake he _
  · exact h.punchTake he _

theorem pump {m : Mech} (h : m.Sound) : (m.pump p now).Sound :=
  Mech.pump_induct Mech.Sound (fun _ _ hm hn => hm.printStep hn) (fun _ _ hm hn => hm.punchStep hn) m h

theorem write {m : Mech} (h : m.Sound) (e : Entry) : (m.write p now e).Sound := by
  refine pump (rest (h.counted.append e) ?_ ?_ fun hh => ?_)
  · rw [CopyQueue.append_entries, List.length_append]
    exact Nat.le_add_right_of_le h.printIn
  · rw [CopyQueue.append_entries, List.length_append]
    exact Nat.le_add_right_of_le h.punchIn
  · obtain ⟨x, hx, hfor⟩ := h.headStands hh
    obtain ⟨hlt, -⟩ := List.getElem?_eq_some_iff.mp hx
    refine ⟨x, ?_, hfor⟩
    rw [CopyQueue.printEntry, CopyQueue.append_entries, CopyQueue.append_printAt, List.getElem?_append_left hlt]
    exact hx

theorem printStand {m : Mech} (h : m.Sound) : m.printStand.Sound := by
  obtain ⟨st, x, hr⟩ := m.printStand_printer
  exact h.keeps m.printStand_queue (by rw [m.printStand_punch]) fun hh => by rw [hr] at hh; exact hh

theorem punchStand {m : Mech} (h : m.Sound) : m.punchStand.Sound := by
  unfold Mech.punchStand
  dsimp only
  split
  · exact h.keeps rfl rfl id
  · exact h.keeps rfl rfl id
  · split
    · exact h.keeps rfl rfl id
    · exact h
  · exact h

theorem settle {m : Mech} (h : m.Sound) : (m.settle p now).Sound := by
  have hstood : (m.printStand.pump p now).printStand.punchStand.Sound := h.printStand.pump.printStand.punchStand
  unfold Mech.settle Mech.watchIdle Mech.lookAtDemand
  split
  · exact hstood.keeps rfl rfl id
  · exact hstood.keeps rfl rfl id

end Mech.Sound

end Sys2Proof.Machine
end

section
/-! The copy queue at rest behind every command, and the whole of its invariant (sections 5.2 to 5.6). -/

namespace Sys2Proof.Machine

open Sys2Proof

/-! ### The printer's head at the events of the mechanism -/

/-- Nothing is placed at the printer's head. -/
def Printer.PlacesNothing (r r' : Printer) : Prop := r'.head.isSome = true → r.head.isSome = true

namespace Printer

variable (r : Printer)

theorem withdraw_places : r.PlacesNothing r.withdraw := nofun

theorem enterFault_places : r.PlacesNothing r.enterFault := nofun

theorem wheelEvent_places (index : Bool) : r.PlacesNothing (r.wheelEvent index) := by
  unfold Printer.wheelEvent
  dsimp only
  split
  · exact id
  · split
    · exact id
    · split
      · exact id
      · split
        · exact nofun
        · exact id

theorem contact_places : r.PlacesNothing r.contact := by
  unfold Printer.contact
  split <;> exact id

theorem returnExpired_places : r.PlacesNothing r.returnExpired := by
  unfold Printer.returnExpired
  split
  · exact nofun
  · exact id
  · exact id

theorem paperGone_places : r.PlacesNothing r.paperGone := by
  unfold Printer.paperGone
  dsimp only
  split
  · exact id
  · exact id
  · split <;> exact nofun
  · exact id

theorem paperBack_places (running : Bool) : r.PlacesNothing (r.paperBack running) := by
  unfold Printer.paperBack
  dsimp only
  split <;> exact id

theorem motorLeft_places : r.PlacesNothing r.motorLeft := by
  unfold Printer.motorLeft
  split
  · exact id
  · split <;> exact nofun
  · exact id

theorem motorReached_places : r.PlacesNothing r.motorReached := by
  unfold Printer.motorReached
  split
  · exact id
  · split <;> exact id
  · exact id

theorem clearFault_places (running : Bool) : r.PlacesNothing (r.clearFault running) := by
  unfold Printer.clearFault
  split <;> exact id

end Printer

/-! ### Every event of the mechanism -/

namespace Mech.Sound

variable {p : Params} {now : Ticks} {c : Instr} {m n : Mech}

theorem printer (h : m.Sound) {r : Printer} (hr : m.printer.PlacesNothing r) : Mech.Sound { m with printer := r } :=
  h.keeps rfl rfl hr

theorem punch (h : m.Sound) {u : Punch} (hu : u.switch = m.punch.switch) : Mech.Sound { m with punch := u } :=
  h.keeps rfl hu id

theorem motorLeaves (h : m.Sound) (target : MotorState) : (m.motorLeaves target).Sound :=
  h.keeps rfl (congrArg Prod.fst m.punch.motorLeft_flags) m.printer.motorLeft_places

theorem act (h : m.Sound) (hact : MechAct p now m c n) : n.Sound := by
  cases hact with
  | wheel index t =>
    have hturned : Mech.Sound { m with printer := m.printer.wheelEvent index } := h.printer (m.printer.wheelEvent_places index)
    unfold Mech.wheelEvent
    dsimp only
    split
    · rename_i hready
      have hhead : (m.printer.wheelEvent index).head.isSome = true := by
        unfold Mech.strikeReady at hready
        dsimp only at hready
        split at hready
        · rename_i hh
          rw [hh]
          rfl
        · cases hready
      obtain ⟨e, he, -⟩ := hturned.headStands hhead
      exact hturned.printTake he rfl
    · exact hturned
  | hammerPulse x hx => exact h.printer id
  | hammerRecovery => exact h.printer id
  | carriageStep t ht => exact h.printer id
  | lineTime => exact h.printer id
  | marginContact t => exact h.printer m.printer.contact_places
  | returnTimeout => exact h.printer m.printer.returnExpired_places
  | paperOut t => exact h.printer m.printer.paperGone_places
  | paperIn t => exact h.printer (m.printer.paperBack_places _)
  | punchSwitch a b t => exact rest h.counted h.printIn h.punchIn h.headStands
  | punchDone t x hx => exact h.punch (congrArg Prod.fst (m.punch.complete_flags p now))
  | punchTimeout x hx => exact h.punch rfl
  | tapeLow t => exact h.punch (congrArg Prod.fst m.punch.lowTape_flags)
  | tapeGone t => exact h.punch (congrArg Prod.fst m.punch.goneTape_flags)
  | tapeReplaced t => exact h.punch (congrArg Prod.fst (m.punch.newTape_flags _))
  | runUp u hu =>
    unfold Mech.runUpExpired
    split
    · exact h.keeps rfl (congrArg Prod.fst (m.punch.motorReached_flags p now)) m.printer.motorReached_places
    · exact h.keeps rfl rfl id
  | speedOk ok t =>
    unfold Mech.speedChanged
    dsimp only
    split
    · exact motorLeaves (m := { m with motor := { m.motor with speedOk := ok } }) (h.keeps rfl rfl id) _
    · exact h.keeps rfl rfl id
  | idleTimer u hu => exact h.motorLeaves _

theorem own (h : m.Sound) (hown : MechOwn p now c m n) : n.Sound := by
  cases hown with
  | clear hc =>
    exact h.keeps rfl (congrArg Prod.fst (m.punch.clearFault_flags _)) (m.printer.clearFault_places _)
  | feedDown => exact h.punch (congrArg Prod.fst (m.punch.feedDown_flags p now))
  | feedUp => exact h.punch rfl
  | mode d t hc => exact h.keeps rfl rfl id

theorem goes (h : m.Sound) (hgoes : Mech.Goes p now c m n) : n.Sound :=
  hgoes.keeps h (fun _ _ hq hm => hm.same hq) (fun _ e hm => hm.write e) (fun _ hm => hm.printer id)
    (fun _ hm => hm.keeps rfl rfl id) (fun _ hm => hm.keeps rfl rfl id) (fun _ _ hm ho => hm.own ho)

/-- What a command leaves. -/
theorem leaves (h : m.Sound) (hl : Mech.Leaves p now c m n) : n.Sound := by
  cases hl with
  | settled hgoes => exact (h.goes hgoes).settle
  | acted hact => exact (h.act hact).settle
  | queue q hq => exact h.same hq
  | bell => exact h.printer id
  | magnets x hx => exact h.punch rfl
  | tapeFlag low t hc hp => exact h.punch rfl

end Mech.Sound

/-! ### The whole invariant -/

/-- The copy queue, its port and the call matcher as they always are; nothing is queued before the read has ended. -/
structure State.QueueSound (s : State) : Prop where
  sound : s.mech.Sound
  ported : s.Ported
  agrees : s.books.Agrees
  empty : s.working = false → s.mech.queue.entries = []

theorem State.queueSafe_iff (s : State) : s.QueueSound ↔ s.queueSafe := by
  constructor
  · rintro ⟨⟨⟨hheld, hpermitted, hstopped, hrequests⟩, hrests⟩, ⟨hroom, hlocal, hreceive, hcounts⟩, hagrees, hempty⟩
    exact ⟨⟨hroom, hheld, hpermitted, hstopped, hrequests⟩, hrests, ⟨hlocal, hreceive⟩, s.agrees_iff.mp hagrees, hcounts,
      hempty⟩
  · rintro ⟨⟨hroom, hheld, hpermitted, hstopped, hrequests⟩, hrests, ⟨hlocal, hreceive⟩, hagrees, hcounts, hempty⟩
    exact ⟨⟨⟨hheld, hpermitted, hstopped, hrequests⟩, hrests⟩, ⟨hroom, hlocal, hreceive, hcounts⟩, s.agrees_iff.mpr hagrees,
      hempty⟩

/-- With nothing queued the switch may be read at any position. -/
theorem Mech.Sound.readInputs {m : Mech} (h : m.Sound) (he : m.queue.entries = []) (pins : Inputs) :
    (m.readInputs pins).Sound := by
  obtain ⟨hcounted, hprint, hpunch, -, -, -, -, hhead⟩ := h
  rw [he] at hprint hpunch
  have hprint : m.queue.printAt = 0 := Nat.le_zero.mp hprint
  have hpunch : m.queue.punchAt = 0 := Nat.le_zero.mp hpunch
  have hnoPrint : m.queue.printEntry = none := by rw [CopyQueue.printEntry, he]; rfl
  have hnoPunch : m.queue.punchEntry = none := by rw [CopyQueue.punchEntry, he]; rfl
  refine ⟨hcounted, ?_, ?_, ?_, ?_, fun _ => ?_, fun _ => ?_, hhead⟩
  · show m.queue.printAt ≤ _; omega
  · show m.queue.punchAt ≤ _; omega
  · show min m.queue.printAt m.queue.punchAt = 0; omega
  · show m.queue.printEntry.all _ = true; rw [hnoPrint]; rfl
  · show m.queue.punchEntry.all _ = true; rw [hnoPunch]; rfl
  · show m.queue.printAt ≤ m.queue.punchAt; omega

/-- Settles O10: the mechanism keeps the queue at rest, and every writer keeps its room, its port and its counts. -/
theorem copyQueueStaysSafe : Obligations.CopyQueueStaysSafe := fun s t hs ht => by
  refine t.queueSafe_iff.mp (step_keeps (P := State.QueueSound) (fun _ _ h => ⟨h.sound, h.ported, h.agrees, h.empty⟩)
    (fun _ _ h => ⟨h.sound, h.ported, h.agrees, h.empty⟩) (fun s => ?start) (fun s bits pins u hw _ h => ?readEnd)
    (fun c s t hw h hact => ?acts) ht (s.queueSafe_iff.mpr hs))
  case start =>
    obtain ⟨hsound, hported, hagrees, hempty⟩ := (State.queueSafe_iff State.reset).mpr (by decide)
    exact ⟨hsound, hported, hagrees, hempty⟩
  case readEnd =>
    have hpost := (s.mech.readInputs pins).queue.post_same (.start (s.loader.readEnd bits).standing.digit)
    have hread := (h.sound.readInputs (h.empty hw) pins).same hpost
    refine ⟨hread.settle, State.settle_ported (State.post_ported _ h.ported), h.agrees, fun _ => ?_⟩
    have hlen := (Mech.settle_frame (s.loader.readEnd bits).params s.now
      { s.mech.readInputs pins with
        queue := (s.mech.readInputs pins).queue.post (.start (s.loader.readEnd bits).standing.digit) }).2
    rw [hpost.entries, show (s.mech.readInputs pins).queue.entries = [] from h.empty hw] at hlen
    exact List.eq_nil_of_length_eq_zero (Nat.le_zero.mp hlen)
  case acts =>
    have hleaves := hact.leaves
    refine ⟨h.sound.leaves hleaves.mech, hact.turns.ported h.agrees h.ported, books_agrees hact.turns.books h.agrees,
      fun hno => ?_⟩
    rw [State.working, hleaves.loader] at hno
    rw [State.working, hno] at hw
    cases hw

end Sys2Proof.Machine
end
